-- ==== Sys2Proof/Word.lean ====
section
/-! DEFINITION. The word types and their plainest arithmetic (R7, R11). -/

namespace Sys2Proof

/-- A 64-bit word: a general register, a control register, a token payload. -/
abbrev Word := BitVec 64

/-- One byte of memory. -/
abbrev Byte := BitVec 8

/-- The bits `[lo + n - 1 : lo]` of a word, as a number (the notation x[msb:lsb] of 00_scope.md). -/
def field (w : Word) (lo n : Nat) : Nat := w.toNat / 2 ^ lo % 2 ^ n

/-- Bit `k` of a word. -/
def bit (w : Word) (k : Nat) : Bool := w.toNat / 2 ^ k % 2 == 1

/-- A number placed so that its lowest bit stands at bit `lo`. -/
def at' (v lo : Nat) : Nat := v * 2 ^ lo

/-- A number as a word, modulo 2^64 (R11). -/
def word (n : Nat) : Word := BitVec.ofNat 64 n

end Sys2Proof
end

