-- ==== Sys2Proof/Machine/Wire.lean ====
section
/-! DEFINITION. What crosses the package's edge: the packets and requests that the outside world sends to the machine
or receives from it. The event constructors of `Instr` carry them. -/

namespace Sys2Proof

/-- The kind of a memory access (R220): read, write or atomic. -/
inductive AccKind where
  | read
  | write
  | atomic
  deriving DecidableEq, Repr

/-- What a bridge does with a beat in error (R392). -/
inductive BeatError where
  /-- a single-bit error: corrected and counted -/
  | corrected
  /-- uncorrectable on the packet network: retransmitted -/
  | retransmitted
  /-- uncorrectable after 4 retransmissions on the packet network -/
  | packetLost
  /-- uncorrectable on the stream network: the token becomes POISON -/
  | streamLost
  deriving DecidableEq, Repr

/-- The atomic a guest asks for (R427): one of R247, or a compare and swap of 8 bytes. -/
inductive GuestAtomicOp where
  | aop (op : Nat) (operand : Word)
  | cas (compare new : Word)
  deriving DecidableEq, Repr

/-- A host access: through the HDM range (R438), or of `size` bytes at an offset of BAR0 or BAR2 (R436). -/
inductive HostAccess where
  | read (addr size : Nat)
  | write (addr : Nat) (data : List Byte)
  | barRead (bar offset size : Nat)
  | barWrite (bar offset : Nat) (data : List Byte)
  deriving DecidableEq, Repr

/-- A link of the domain (R404): the peers and ports that it joins, and whether the other packages show it UP. -/
structure Link where
  a : Nat
  pa : Nat
  b : Nat
  pb : Nat
  up : Bool
  deriving DecidableEq, Repr

/-- The transport mode of an Ethernet packet (R443). -/
inductive EthMode where
  | rud
  | uud
  | rod
  deriving DecidableEq, Repr

/-- A packet received on an Ethernet port (R311, R443). `ring` is the low 8 bits of the resource index, `src` the source
address, `payload` the encrypted payload as it arrived. -/
structure EthPacket where
  mode : EthMode
  ring : Nat
  src : BitVec 128
  frameOk : Bool
  payload : List Byte
  deriving DecidableEq, Repr

/-- A Krydeoft packet: the header flit of R401 and the data flits that follow it. -/
structure KPacket where
  dst : Nat
  src : Nat
  vc : Nat
  type : Nat
  ndata : Nat
  status : Nat
  addr : Nat
  rid : Nat
  key : Nat
  group : Nat
  lg2 : Nat
  aop : Nat
  op0 : Word
  op1 : Word
  tag : Word
  mask : List Nat
  data : List Byte
  deriving DecidableEq, Repr

/-- What an event is about: a cluster `c`, an element `e` (R84: physical plot times 4 plus element), a context slot `x`, a route or ring
`r`, a slot, entry or number `k`, a placement `p`, a frame `f`, a queue `q`, a port `n`; and the data that come with it from
outside the package. An event reads the parts its meaning names. (DEDUCED, safe: log 2.) -/
structure Arg where
  c : Nat := 0
  e : Nat := 0
  x : Nat := 0
  r : Nat := 0
  k : Nat := 0
  p : Nat := 0
  f : Nat := 0
  q : Nat := 0
  n : Nat := 0
  v : Word := 0
  w : Word := 0
  ok : Bool := false
  bytes : List Byte := []
  mask : List Bool := []
  beat : BeatError := .corrected
  acc : AccKind := .read
  gop : Option GuestAtomicOp := none
  hdm : Option HostAccess := none
  eth : Option EthPacket := none
  pkt : Option KPacket := none
  link : Option Link := none
  deriving DecidableEq, Repr

end Sys2Proof
end

