-- ==== Sys2Proof/Config.lean ====
section
/-! DEFINITION. What one part fixes and what the spec leaves open: constants without a body, so that no proof sees their value. -/

namespace Sys2Proof.Config

/-- R440: PKGID, fixed by the part's identity. -/
opaque pkgId : Word

/-- Which of several agents that could move next does so: the choice of that number among so many. (DESIGN CHOICE, safe: log 1.) -/
opaque pick : Nat → Nat → Nat

/-- A word whose value the spec does not state, by the number of the draw. (DESIGN CHOICE, safe: log 9.) -/
opaque freeWord : Nat → Word

/-- R447, R336: the payload of the POISON that a firing's read of an uncorrectable word becomes, by its element and cycle: the spec states none. (DESIGN CHOICE, safe: log 25.) -/
opaque badRead : Nat → Nat → Word

/-- R183 row 5: the fault value where the row names A's descriptor and A is a scalar, by A's payload and B's descriptor: the spec states none. (DESIGN CHOICE, safe: log 26.) -/
opaque scalarFaultValue : Word → Word → Word

/-- R311: AES-256-GCM opens a received payload under a key's secret, or refuses it: the spec gives no packet layout of nonce and tag. (DESIGN CHOICE, safe: log 88.) -/
opaque gcmOpens : List Byte → List Byte → Bool

/-- R311: byte `i` of the plaintext of such a payload. -/
opaque gcmPlain : List Byte → List Byte → Nat → Byte

/-- R401, R407, R408: the integrity tag that goes with the data of a Krydeoft packet, by a key's secret, the data's address and its bytes: the spec does not say what the tag of
part of a line is taken over. (DESIGN CHOICE, safe: log 143.) -/
opaque dataTag : List Byte → Nat → List Byte → Word

/-- R445: the public half of the device identity key, fused into the part. -/
opaque identityKey : Vector Byte 1312

/-- R445: the ML-DSA-44 signature of a message under the device identity key. -/
opaque signature : List Byte → Vector Byte 2420

/-- R445: the ML-KEM-768 ciphertext for a public key, by the number of the draw of the encapsulation's randomness. (DESIGN CHOICE, safe: log 87.) -/
opaque kemCipher : List Byte → Nat → Vector Byte 1088

/-- R445: the shared secret of that encapsulation. -/
opaque kemSecret : List Byte → Nat → Vector Byte 32

/-- R445: the bytes of a receipt before its signature, from KIDX, OP, SERIAL, ACC and REASON: the spec gives no layout. -/
opaque receiptBody : Nat → Nat → Nat → Bool → Nat → List Byte

end Sys2Proof.Config
end

