-- ==== Sys2Proof/Syntax.lean ====
section
/-! DEFINITION. The abstract syntax: one constructor for each row of spec/opcode_table.json.
Three groups stand in one type, in the table's order. Sequencer instructions (R36 to R51, R93, R254, R328, R370, R446)
carry the fields of their 32-bit word. Element operators (R113) carry the fields of their element word: sources `a` (SA)
and `b` (SB), destinations `x` (D0) and `y` (D1), tag action `t` (TA), attribute index `n` (ATR). The machine's events have no word and no fields: what
an event is about (`Arg`, in Machine/Wire.lean) stands in the state's field `arg`. -/

namespace Sys2Proof

/-- One step of the machine. -/
inductive Instr where
  /-- R36: Writes the sum of two general registers to g[d]. -/
  | add (d : BitVec 5) (a : BitVec 5) (b : BitVec 5)
  /-- R36: Writes g[a] minus g[b] to g[d]. -/
  | sub (d : BitVec 5) (a : BitVec 5) (b : BitVec 5)
  /-- R36: Writes the bitwise AND of two registers to g[d]. -/
  | and (d : BitVec 5) (a : BitVec 5) (b : BitVec 5)
  /-- R36: Writes the bitwise OR of two registers to g[d]. -/
  | or (d : BitVec 5) (a : BitVec 5) (b : BitVec 5)
  /-- R36: Writes the bitwise XOR of two registers to g[d]. -/
  | xor (d : BitVec 5) (a : BitVec 5) (b : BitVec 5)
  /-- R36: Writes g[a] AND NOT g[b] to g[d]. -/
  | andn (d : BitVec 5) (a : BitVec 5) (b : BitVec 5)
  /-- R36: Shifts g[a] left by g[b][5:0]. -/
  | shl (d : BitVec 5) (a : BitVec 5) (b : BitVec 5)
  /-- R36: Shifts g[a] right logically by g[b][5:0]. -/
  | shr (d : BitVec 5) (a : BitVec 5) (b : BitVec 5)
  /-- R36: Shifts g[a] right arithmetically by g[b][5:0]. -/
  | sar (d : BitVec 5) (a : BitVec 5) (b : BitVec 5)
  /-- R36: Rotates g[a] left by g[b][5:0]. -/
  | rot (d : BitVec 5) (a : BitVec 5) (b : BitVec 5)
  /-- R37: Writes the low 64 bits of the product. -/
  | mul (d : BitVec 5) (a : BitVec 5) (b : BitVec 5)
  /-- R37: Writes the high 64 bits of the signed product. -/
  | mulh (d : BitVec 5) (a : BitVec 5) (b : BitVec 5)
  /-- R37: Writes the high 64 bits of the unsigned product. -/
  | mulhu (d : BitVec 5) (a : BitVec 5) (b : BitVec 5)
  /-- R37: Signed division truncated toward zero, with defined divide-by-zero and overflow results. -/
  | div (d : BitVec 5) (a : BitVec 5) (b : BitVec 5)
  /-- R37: Unsigned division, all ones on divide by zero. -/
  | divu (d : BitVec 5) (a : BitVec 5) (b : BitVec 5)
  /-- R37: Signed remainder with the sign of the dividend. -/
  | rem (d : BitVec 5) (a : BitVec 5) (b : BitVec 5)
  /-- R37: Unsigned remainder. -/
  | remu (d : BitVec 5) (a : BitVec 5) (b : BitVec 5)
  /-- R38: Sets g[d] to 1 if g[a] < g[b] signed. -/
  | slt (d : BitVec 5) (a : BitVec 5) (b : BitVec 5)
  /-- R38: Sets g[d] to 1 if g[a] < g[b] unsigned. -/
  | sltu (d : BitVec 5) (a : BitVec 5) (b : BitVec 5)
  /-- R38: Sets g[d] to 1 if g[a] = g[b]. -/
  | seq (d : BitVec 5) (a : BitVec 5) (b : BitVec 5)
  /-- R38: Writes the signed lesser of two registers. -/
  | min (d : BitVec 5) (a : BitVec 5) (b : BitVec 5)
  /-- R38: Writes the signed greater of two registers. -/
  | max (d : BitVec 5) (a : BitVec 5) (b : BitVec 5)
  /-- R38: Writes the unsigned lesser of two registers. -/
  | minu (d : BitVec 5) (a : BitVec 5) (b : BitVec 5)
  /-- R38: Writes the unsigned greater of two registers. -/
  | maxu (d : BitVec 5) (a : BitVec 5) (b : BitVec 5)
  /-- R39: Counts leading zero bits of g[a]. -/
  | clz (d : BitVec 5) (a : BitVec 5)
  /-- R39: Counts trailing zero bits of g[a]. -/
  | ctz (d : BitVec 5) (a : BitVec 5)
  /-- R39: Counts set bits of g[a]. -/
  | popc (d : BitVec 5) (a : BitVec 5)
  /-- R40: Adds a sign-extended 16-bit immediate to g[a]. -/
  | addi (d : BitVec 5) (a : BitVec 5) (imm : BitVec 16)
  /-- R40: ANDs g[a] with a zero-extended immediate. -/
  | andi (d : BitVec 5) (a : BitVec 5) (imm : BitVec 16)
  /-- R40: ORs g[a] with a zero-extended immediate. -/
  | ori (d : BitVec 5) (a : BitVec 5) (imm : BitVec 16)
  /-- R40: XORs g[a] with a zero-extended immediate. -/
  | xori (d : BitVec 5) (a : BitVec 5) (imm : BitVec 16)
  /-- R40: Shifts g[a] left by an immediate amount. -/
  | shli (d : BitVec 5) (a : BitVec 5) (n : BitVec 6)
  /-- R40: Shifts g[a] right logically by an immediate amount. -/
  | shri (d : BitVec 5) (a : BitVec 5) (n : BitVec 6)
  /-- R40: Shifts g[a] right arithmetically by an immediate amount. -/
  | sari (d : BitVec 5) (a : BitVec 5) (n : BitVec 6)
  /-- R40: Signed compare of g[a] with a sign-extended immediate. -/
  | slti (d : BitVec 5) (a : BitVec 5) (imm : BitVec 16)
  /-- R40: Unsigned compare of g[a] with a sign-extended immediate. -/
  | sltiu (d : BitVec 5) (a : BitVec 5) (imm : BitVec 16)
  /-- R40: Shifts g[a] left 16 bits and inserts the immediate at the bottom. -/
  | ldhi (d : BitVec 5) (a : BitVec 5) (imm : BitVec 16)
  /-- R41: Extracts an unsigned bit field of g[a]. -/
  | bfx (d : BitVec 5) (a : BitVec 5) (o : BitVec 8) (w : BitVec 8)
  /-- R41: Extracts a sign-extended bit field of g[a]. -/
  | bfxs (d : BitVec 5) (a : BitVec 5) (o : BitVec 8) (w : BitVec 8)
  /-- R41: Inserts the low bits of g[a] into a field of g[d]. -/
  | bfi (d : BitVec 5) (a : BitVec 5) (o : BitVec 8) (w : BitVec 8)
  /-- R43: Loads a sign-extended byte. -/
  | lb (d : BitVec 5) (a : BitVec 5) (imm : BitVec 16)
  /-- R43: Loads a zero-extended byte. -/
  | lbu (d : BitVec 5) (a : BitVec 5) (imm : BitVec 16)
  /-- R43: Loads a sign-extended half-word. -/
  | lh (d : BitVec 5) (a : BitVec 5) (imm : BitVec 16)
  /-- R43: Loads a zero-extended half-word. -/
  | lhu (d : BitVec 5) (a : BitVec 5) (imm : BitVec 16)
  /-- R43: Loads a sign-extended word. -/
  | lw (d : BitVec 5) (a : BitVec 5) (imm : BitVec 16)
  /-- R43: Loads a zero-extended word. -/
  | lwu (d : BitVec 5) (a : BitVec 5) (imm : BitVec 16)
  /-- R43: Loads a double-word, local or translated. -/
  | ld (d : BitVec 5) (a : BitVec 5) (imm : BitVec 16)
  /-- R43: Stores a byte. -/
  | sb (r : BitVec 5) (a : BitVec 5) (imm : BitVec 16)
  /-- R43: Stores a half-word. -/
  | sh (r : BitVec 5) (a : BitVec 5) (imm : BitVec 16)
  /-- R43: Stores a word. -/
  | sw (r : BitVec 5) (a : BitVec 5) (imm : BitVec 16)
  /-- R43: Stores a double-word. -/
  | sd (r : BitVec 5) (a : BitVec 5) (imm : BitVec 16)
  /-- R44: Branches if two registers are equal. -/
  | beq (a : BitVec 5) (b : BitVec 5) (o : BitVec 16)
  /-- R44: Branches if two registers differ. -/
  | bne (a : BitVec 5) (b : BitVec 5) (o : BitVec 16)
  /-- R44: Branches if g[a] < g[b] signed. -/
  | blt (a : BitVec 5) (b : BitVec 5) (o : BitVec 16)
  /-- R44: Branches if g[a] >= g[b] signed. -/
  | bge (a : BitVec 5) (b : BitVec 5) (o : BitVec 16)
  /-- R44: Branches if g[a] < g[b] unsigned. -/
  | bltu (a : BitVec 5) (b : BitVec 5) (o : BitVec 16)
  /-- R44: Branches if g[a] >= g[b] unsigned. -/
  | bgeu (a : BitVec 5) (b : BitVec 5) (o : BitVec 16)
  /-- R45: Jumps pc-relative by a 26-bit word offset. -/
  | j (o : BitVec 26)
  /-- R45: Jumps pc-relative and links into g31. -/
  | jal (o : BitVec 26)
  /-- R45: Jumps to g[a] plus an offset and links into g[d]; JR is the form with d = g0. -/
  | jalr (d : BitVec 5) (a : BitVec 5) (imm : BitVec 16)
  /-- R46: Reads a control register into g[d]. -/
  | crrd (d : BitVec 5) (n : BitVec 12)
  /-- R46: Writes g[a] into a control register field by field. -/
  | crwr (a : BitVec 5) (n : BitVec 12)
  /-- R46: Sets bits of a control register and returns the old value. -/
  | crset (d : BitVec 5) (a : BitVec 5) (n : BitVec 12)
  /-- R46: Clears bits of a control register and returns the old value. -/
  | crclr (d : BitVec 5) (a : BitVec 5) (n : BitVec 12)
  /-- R48: Atomically swaps a 64-bit word. -/
  | amoswap (d : BitVec 5) (a : BitVec 5) (b : BitVec 5)
  /-- R48: Atomically compares and swaps a 64-bit word. -/
  | amocas (d : BitVec 5) (a : BitVec 5) (b : BitVec 5) (c : BitVec 5)
  /-- R48: Atomically adds to a 64-bit word. -/
  | amoadd (d : BitVec 5) (a : BitVec 5) (b : BitVec 5)
  /-- R48: Atomically ANDs into a 64-bit word. -/
  | amoand (d : BitVec 5) (a : BitVec 5) (b : BitVec 5)
  /-- R48: Atomically ORs into a 64-bit word. -/
  | amoor (d : BitVec 5) (a : BitVec 5) (b : BitVec 5)
  /-- R48: Atomically XORs into a 64-bit word. -/
  | amoxor (d : BitVec 5) (a : BitVec 5) (b : BitVec 5)
  /-- R48: Atomically takes the signed minimum. -/
  | amomin (d : BitVec 5) (a : BitVec 5) (b : BitVec 5)
  /-- R48: Atomically takes the signed maximum. -/
  | amomax (d : BitVec 5) (a : BitVec 5) (b : BitVec 5)
  /-- R49: Does nothing. -/
  | nop
  /-- R49: Waits until every earlier access of the sequencer has performed at SYSTEM scope. -/
  | fence
  /-- R28: Returns from a trap, restoring level and interrupt enable. -/
  | tret
  /-- R50: Completes at once or enters WAITING until an enabled interrupt cause is pending. -/
  | wfe
  /-- R49: Sets one event bit of this cluster. -/
  | sev (a : BitVec 5)
  /-- R49: Moves the sequencer to HALTED. -/
  | halt
  /-- R51: Always traps with TRAP_OP, SUB 0. -/
  | syscall (imm : BitVec 16)
  /-- R51: Always traps with TRAP_OP, SUB 1. -/
  | brk (imm : BitVec 16)
  /-- R96: Checks, places and loads a graph image and returns a status word. -/
  | gload (d : BitVec 5) (a : BitVec 5) (b : BitVec 5)
  /-- R97: Removes a placed graph with no frames or custody. -/
  | gevict (d : BitVec 5) (a : BitVec 5)
  /-- R98: Allocates a frame with spill pages and an injection hold. -/
  | falloc (d : BitVec 5) (a : BitVec 5) (b : BitVec 5) (c : BitVec 5)
  /-- R99: Frees a COMPLETE or idle OPEN frame. -/
  | ffree (d : BitVec 5) (a : BitVec 5)
  /-- R100: Kills a frame by a GEN bump and returns it to OPEN. -/
  | fkill (d : BitVec 5) (a : BitVec 5)
  /-- R101: Injects a token through an entry port of an OPEN frame. -/
  | tinj (d : BitVec 5) (a : BitVec 5) (b : BitVec 5) (c : BitVec 5)
  /-- R102: Reads an item of fabric state into g[d]. -/
  | census (d : BitVec 5) (a : BitVec 5) (b : BitVec 5)
  /-- R254: Invalidates translations of one page of one ASID. -/
  | tlbiPage (a : BitVec 5) (b : BitVec 5)
  /-- R254: Invalidates all translations of one ASID. -/
  | tlbiAsid (b : BitVec 5)
  /-- R254: Invalidates every translation. -/
  | tlbiAll
  /-- R338: Sets the priority of a placement at every live context. -/
  | cprio (d : BitVec 5) (a : BitVec 5) (b : BitVec 5)
  /-- R341: Saves a virtual plot to an HBM image. -/
  | csave (d : BitVec 5) (a : BitVec 5) (b : BitVec 5) (c : BitVec 5)
  /-- R344: Restores a saved virtual plot from its image. -/
  | crstr (d : BitVec 5) (a : BitVec 5) (b : BitVec 5) (c : BitVec 5)
  /-- R329: Settles a pending fault by consuming operands and emitting given values. -/
  | fres (d : BitVec 5) (a : BitVec 5) (b : BitVec 5) (c : BitVec 5)
  /-- R329: Settles a pending fault by discarding its operands. -/
  | fdisc (d : BitVec 5) (a : BitVec 5)
  /-- R329: Settles a pending fault by returning its operands to the MS. -/
  | fretry (d : BitVec 5) (a : BitVec 5)
  /-- R371: Injects markers of the next window to cut a frame. -/
  | wmark (d : BitVec 5) (a : BitVec 5) (b : BitVec 5)
  /-- R367: Retires complete windows of a frame's log. -/
  | wretire (d : BitVec 5) (a : BitVec 5) (b : BitVec 5)
  /-- R364: Rolls a frame back to a complete cut. -/
  | rwin (d : BitVec 5) (a : BitVec 5) (b : BitVec 5)
  /-- R369: Undoes the last n logged writes of a paused FINE frame. -/
  | rstep (d : BitVec 5) (a : BitVec 5) (b : BitVec 5)
  /-- R371: Pauses, resumes or steps a frame. -/
  | fstep (d : BitVec 5) (a : BitVec 5) (b : BitVec 5)
  /-- R371: Sets or moves a frame's log mode and ring. -/
  | wcfg (d : BitVec 5) (a : BitVec 5) (b : BitVec 5) (c : BitVec 5)
  /-- R446: Triggers or joins a snapshot latch and returns its sequence number. -/
  | snap (d : BitVec 5) (a : BitVec 5)
  /-- R151: Routes A to D0 or D1 by B. -/
  | steer (a : BitVec 4) (b : BitVec 4) (x : BitVec 4) (y : BitVec 4) (t : BitVec 4) (n : BitVec 4)
  /-- R151: Passes the oldest token of either port. -/
  | merge (a : BitVec 4) (b : BitVec 4) (x : BitVec 4) (y : BitVec 4) (t : BitVec 4) (n : BitVec 4)
  /-- R152: Advances a carried token's iteration or takes a credit word. -/
  | lcarry (a : BitVec 4) (b : BitVec 4) (x : BitVec 4) (y : BitVec 4) (t : BitVec 4) (n : BitVec 4)
  /-- R162: On exit emits the committed value and a KILL token. -/
  | lexit (a : BitVec 4) (b : BitVec 4) (x : BitVec 4) (y : BitVec 4) (t : BitVec 4) (n : BitVec 4)
  /-- R157: Emits one counter item or END per firing of a run. -/
  | count (a : BitVec 4) (b : BitVec 4) (x : BitVec 4) (n : BitVec 4)
  /-- R157: Emits one two-dimensional counter item or END per firing. -/
  | count2 (a : BitVec 4) (b : BitVec 4) (x : BitVec 4) (n : BitVec 4)
  /-- R158: Emits a BOUND token carrying A's payload. -/
  | bound (a : BitVec 4) (x : BitVec 4) (y : BitVec 4) (t : BitVec 4) (n : BitVec 4)
  /-- R159: Separates END tokens of level L or above from other tokens. -/
  | endq (a : BitVec 4) (x : BitVec 4) (y : BitVec 4) (t : BitVec 4) (n : BitVec 4)
  /-- R151: Emits A once B has arrived. -/
  | gate (a : BitVec 4) (b : BitVec 4) (x : BitVec 4) (y : BitVec 4) (t : BitVec 4) (n : BitVec 4)
  /-- R151: Emits DATA 0 once both operands have arrived. -/
  | join (a : BitVec 4) (b : BitVec 4) (x : BitVec 4) (y : BitVec 4) (t : BitVec 4) (n : BitVec 4)
  /-- R151: Emits A on both destinations. -/
  | copy (a : BitVec 4) (x : BitVec 4) (y : BitVec 4) (t : BitVec 4) (n : BitVec 4)
  /-- R151: Consumes A and emits nothing. -/
  | sink (a : BitVec 4) (t : BitVec 4) (n : BitVec 4)
  /-- R151: Emits the attribute entry as DATA. -/
  | const (a : BitVec 4) (x : BitVec 4) (y : BitVec 4) (t : BitVec 4) (n : BitVec 4)
  /-- R161: Colours A with a free speculation colour or frees colours. -/
  | spect (a : BitVec 4) (b : BitVec 4) (x : BitVec 4) (y : BitVec 4) (t : BitVec 4) (n : BitVec 4)
  /-- R162: Emits a COMMIT token when B is nonzero and always a release. -/
  | commit (a : BitVec 4) (b : BitVec 4) (x : BitVec 4) (y : BitVec 4) (n : BitVec 4)
  /-- R162: Emits a KILL token for a colour set. -/
  | kill (a : BitVec 4) (x : BitVec 4) (y : BitVec 4) (n : BitVec 4)
  /-- R167: Sends A into another frame and emits a continuation. -/
  | fnew (a : BitVec 4) (b : BitVec 4) (x : BitVec 4) (y : BitVec 4) (n : BitVec 4)
  /-- R167: Returns A to the caller's frame and iteration. -/
  | fret (a : BitVec 4) (b : BitVec 4) (x : BitVec 4) (n : BitVec 4)
  /-- R154: Emits a GRANT credit word for concurrent outer iterations. -/
  | colalloc (a : BitVec 4) (x : BitVec 4) (y : BitVec 4) (t : BitVec 4) (n : BitVec 4)
  /-- R154: Emits a RETIRE or RETURN credit word. -/
  | colret (a : BitVec 4) (x : BitVec 4) (y : BitVec 4) (t : BitVec 4) (n : BitVec 4)
  /-- R162: Emits the union of two colour sets. -/
  | pack (a : BitVec 4) (b : BitVec 4) (x : BitVec 4) (y : BitVec 4) (t : BitVec 4) (n : BitVec 4)
  /-- R162: Emits the lowest colour and the remainder of a set. -/
  | unpack (a : BitVec 4) (x : BitVec 4) (y : BitVec 4) (t : BitVec 4) (n : BitVec 4)
  /-- R172: Element scalar add. -/
  | iadd (a : BitVec 4) (b : BitVec 4) (x : BitVec 4) (y : BitVec 4) (t : BitVec 4) (n : BitVec 4)
  /-- R172: Element scalar subtract. -/
  | isub (a : BitVec 4) (b : BitVec 4) (x : BitVec 4) (y : BitVec 4) (t : BitVec 4) (n : BitVec 4)
  /-- R172: Element scalar low multiply. -/
  | imul (a : BitVec 4) (b : BitVec 4) (x : BitVec 4) (y : BitVec 4) (t : BitVec 4) (n : BitVec 4)
  /-- R172: Element scalar signed high multiply. -/
  | imulh (a : BitVec 4) (b : BitVec 4) (x : BitVec 4) (y : BitVec 4) (t : BitVec 4) (n : BitVec 4)
  /-- R174: Element scalar divide, optionally trapping. -/
  | idiv (a : BitVec 4) (b : BitVec 4) (x : BitVec 4) (y : BitVec 4) (t : BitVec 4) (n : BitVec 4)
  /-- R174: Element scalar remainder, optionally trapping. -/
  | irem (a : BitVec 4) (b : BitVec 4) (x : BitVec 4) (y : BitVec 4) (t : BitVec 4) (n : BitVec 4)
  /-- R172: Element scalar AND. -/
  | elAnd (a : BitVec 4) (b : BitVec 4) (x : BitVec 4) (y : BitVec 4) (t : BitVec 4) (n : BitVec 4)
  /-- R172: Element scalar OR. -/
  | elOr (a : BitVec 4) (b : BitVec 4) (x : BitVec 4) (y : BitVec 4) (t : BitVec 4) (n : BitVec 4)
  /-- R172: Element scalar XOR. -/
  | elXor (a : BitVec 4) (b : BitVec 4) (x : BitVec 4) (y : BitVec 4) (t : BitVec 4) (n : BitVec 4)
  /-- R172: Element scalar AND NOT. -/
  | elAndn (a : BitVec 4) (b : BitVec 4) (x : BitVec 4) (y : BitVec 4) (t : BitVec 4) (n : BitVec 4)
  /-- R172: Element scalar shift left. -/
  | elShl (a : BitVec 4) (b : BitVec 4) (x : BitVec 4) (y : BitVec 4) (t : BitVec 4) (n : BitVec 4)
  /-- R172: Element scalar logical shift right. -/
  | elShr (a : BitVec 4) (b : BitVec 4) (x : BitVec 4) (y : BitVec 4) (t : BitVec 4) (n : BitVec 4)
  /-- R172: Element scalar arithmetic shift right. -/
  | elSar (a : BitVec 4) (b : BitVec 4) (x : BitVec 4) (y : BitVec 4) (t : BitVec 4) (n : BitVec 4)
  /-- R172: Element scalar rotate left. -/
  | elRot (a : BitVec 4) (b : BitVec 4) (x : BitVec 4) (y : BitVec 4) (t : BitVec 4) (n : BitVec 4)
  /-- R172: Element scalar signed minimum. -/
  | elMin (a : BitVec 4) (b : BitVec 4) (x : BitVec 4) (y : BitVec 4) (t : BitVec 4) (n : BitVec 4)
  /-- R172: Element scalar signed maximum. -/
  | elMax (a : BitVec 4) (b : BitVec 4) (x : BitVec 4) (y : BitVec 4) (t : BitVec 4) (n : BitVec 4)
  /-- R172: Element scalar unsigned minimum. -/
  | elMinu (a : BitVec 4) (b : BitVec 4) (x : BitVec 4) (y : BitVec 4) (t : BitVec 4) (n : BitVec 4)
  /-- R172: Element scalar unsigned maximum. -/
  | elMaxu (a : BitVec 4) (b : BitVec 4) (x : BitVec 4) (y : BitVec 4) (t : BitVec 4) (n : BitVec 4)
  /-- R172: Element scalar compare by a configured condition. -/
  | cmp (a : BitVec 4) (b : BitVec 4) (x : BitVec 4) (y : BitVec 4) (t : BitVec 4) (n : BitVec 4)
  /-- R172: Selects B or the attribute value by A. -/
  | sel (a : BitVec 4) (b : BitVec 4) (x : BitVec 4) (y : BitVec 4) (t : BitVec 4) (n : BitVec 4)
  /-- R172: Element scalar bit-field extract. -/
  | elBfx (a : BitVec 4) (x : BitVec 4) (y : BitVec 4) (t : BitVec 4) (n : BitVec 4)
  /-- R172: Element scalar bit-field insert. -/
  | elBfi (a : BitVec 4) (b : BitVec 4) (x : BitVec 4) (y : BitVec 4) (t : BitVec 4) (n : BitVec 4)
  /-- R172: Element scalar count of leading zeros. -/
  | elClz (a : BitVec 4) (x : BitVec 4) (y : BitVec 4) (t : BitVec 4) (n : BitVec 4)
  /-- R172: Element scalar population count. -/
  | elPopc (a : BitVec 4) (x : BitVec 4) (y : BitVec 4) (t : BitVec 4) (n : BitVec 4)
  /-- R174: Saturating add, optionally trapping on overflow. -/
  | addsat (a : BitVec 4) (b : BitVec 4) (x : BitVec 4) (y : BitVec 4) (t : BitVec 4) (n : BitVec 4)
  /-- R174: Signed absolute value, optionally trapping on overflow. -/
  | abs (a : BitVec 4) (x : BitVec 4) (y : BitVec 4) (t : BitVec 4) (n : BitVec 4)
  /-- R176: Emits one two-dimensional address item or END per firing. -/
  | agen (a : BitVec 4) (b : BitVec 4) (x : BitVec 4) (y : BitVec 4) (n : BitVec 4)
  /-- R177: Adds a byte offset to an address token. -/
  | ainc (a : BitVec 4) (b : BitVec 4) (x : BitVec 4) (y : BitVec 4) (t : BitVec 4) (n : BitVec 4)
  /-- R177: Forms base plus scaled index, with an optional bounds check. -/
  | aidx (a : BitVec 4) (b : BitVec 4) (x : BitVec 4) (y : BitVec 4) (t : BitVec 4) (n : BitVec 4)
  /-- R245: Creates a memory-port entry that loads a tile. -/
  | ldt (a : BitVec 4) (b : BitVec 4) (x : BitVec 4) (y : BitVec 4) (t : BitVec 4) (n : BitVec 4)
  /-- R245: Creates a memory-port entry that stores a tile under its mask. -/
  | stt (a : BitVec 4) (b : BitVec 4) (x : BitVec 4) (y : BitVec 4) (t : BitVec 4) (n : BitVec 4)
  /-- R244: Creates a memory-port entry that loads a scalar. -/
  | lds (a : BitVec 4) (b : BitVec 4) (x : BitVec 4) (y : BitVec 4) (t : BitVec 4) (n : BitVec 4)
  /-- R244: Creates a memory-port entry that stores a scalar. -/
  | sts (a : BitVec 4) (b : BitVec 4) (x : BitVec 4) (y : BitVec 4) (t : BitVec 4) (n : BitVec 4)
  /-- R246: Creates an atomic entry that returns completions. -/
  | atom (a : BitVec 4) (b : BitVec 4) (x : BitVec 4) (y : BitVec 4) (t : BitVec 4) (n : BitVec 4)
  /-- R246: Creates an atomic entry that returns the old value. -/
  | atomr (a : BitVec 4) (b : BitVec 4) (x : BitVec 4) (y : BitVec 4) (t : BitVec 4) (n : BitVec 4)
  /-- R248: Creates a compare-and-swap entry that returns the old value. -/
  | casr (a : BitVec 4) (b : BitVec 4) (x : BitVec 4) (y : BitVec 4) (t : BitVec 4) (n : BitVec 4)
  /-- R249: Creates an entry that emits DATA 0 once earlier committed entries have performed. -/
  | elFence (a : BitVec 4) (b : BitVec 4) (x : BitVec 4) (y : BitVec 4) (t : BitVec 4) (n : BitVec 4)
  /-- R250: Fills commons copies of HBM lines. -/
  | pref (a : BitVec 4) (b : BitVec 4) (x : BitVec 4) (y : BitVec 4) (t : BitVec 4) (n : BitVec 4)
  /-- R251: Copies lines into the context's weight buffer. -/
  | wbld (a : BitVec 4) (b : BitVec 4) (x : BitVec 4) (y : BitVec 4) (t : BitVec 4) (n : BitVec 4)
  /-- R288: Sends a copy command tile to the cluster's copy engine. -/
  | cpy (a : BitVec 4) (b : BitVec 4) (x : BitVec 4) (t : BitVec 4) (n : BitVec 4)
  /-- R288: Sends a copy-then-signal command tile to the copy engine. -/
  | cpyw (a : BitVec 4) (b : BitVec 4) (x : BitVec 4) (t : BitVec 4) (n : BitVec 4)
  /-- R415: Creates an entry that stores a block at the home and every group member. -/
  | mcst (a : BitVec 4) (b : BitVec 4) (x : BitVec 4) (y : BitVec 4) (t : BitVec 4) (n : BitVec 4)
  /-- R295: Creates a releasing atomic entry that updates a completion signal. -/
  | sigop (a : BitVec 4) (b : BitVec 4) (x : BitVec 4) (y : BitVec 4) (t : BitVec 4) (n : BitVec 4)
  /-- R313: Claims the next record of a bound ring. -/
  | ringpop (a : BitVec 4) (b : BitVec 4) (x : BitVec 4) (y : BitVec 4) (t : BitVec 4) (n : BitVec 4)
  /-- R313: Releases n claimed ring records. -/
  | ringrel (a : BitVec 4) (b : BitVec 4) (x : BitVec 4) (y : BitVec 4) (t : BitVec 4) (n : BitVec 4)
  /-- R423: Sends a guest queue packet to the guest edge port. -/
  | gqp (a : BitVec 4) (b : BitVec 4) (x : BitVec 4) (t : BitVec 4) (n : BitVec 4)
  /-- R168: Sets, clears or toggles an event bit and emits A. -/
  | evset (a : BitVec 4) (x : BitVec 4) (y : BitVec 4) (t : BitVec 4) (n : BitVec 4)
  /-- R168: Fires when an event bit meets its condition and emits A. -/
  | evwait (a : BitVec 4) (x : BitVec 4) (y : BitVec 4) (t : BitVec 4) (n : BitVec 4)
  /-- R171: Faults with TRAP_OP when B is nonzero, else passes A. -/
  | trap (a : BitVec 4) (b : BitVec 4) (x : BitVec 4) (y : BitVec 4) (t : BitVec 4) (n : BitVec 4)
  /-- R171: Counts passes and faults when the hit count is reached. -/
  | brkp (a : BitVec 4) (x : BitVec 4) (y : BitVec 4) (t : BitVec 4) (n : BitVec 4)
  /-- R188: Element-wise floating add of tiles. -/
  | vadd (a : BitVec 4) (b : BitVec 4) (x : BitVec 4) (y : BitVec 4) (t : BitVec 4) (n : BitVec 4)
  /-- R188: Element-wise floating subtract. -/
  | vsub (a : BitVec 4) (b : BitVec 4) (x : BitVec 4) (y : BitVec 4) (t : BitVec 4) (n : BitVec 4)
  /-- R188: Element-wise floating multiply. -/
  | vmul (a : BitVec 4) (b : BitVec 4) (x : BitVec 4) (y : BitVec 4) (t : BitVec 4) (n : BitVec 4)
  /-- R189: Element-wise fused multiply-add with one rounding. -/
  | vfma (a : BitVec 4) (b : BitVec 4) (x : BitVec 4) (y : BitVec 4) (t : BitVec 4) (n : BitVec 4)
  /-- R188: Element-wise floating minimum. -/
  | vmin (a : BitVec 4) (b : BitVec 4) (x : BitVec 4) (y : BitVec 4) (t : BitVec 4) (n : BitVec 4)
  /-- R188: Element-wise floating maximum. -/
  | vmax (a : BitVec 4) (b : BitVec 4) (x : BitVec 4) (y : BitVec 4) (t : BitVec 4) (n : BitVec 4)
  /-- R188: Element-wise absolute value. -/
  | vabs (a : BitVec 4) (x : BitVec 4) (y : BitVec 4) (t : BitVec 4) (n : BitVec 4)
  /-- R188: Element-wise negation. -/
  | vneg (a : BitVec 4) (x : BitVec 4) (y : BitVec 4) (t : BitVec 4) (n : BitVec 4)
  /-- R190: Element-wise integer add. -/
  | viadd (a : BitVec 4) (b : BitVec 4) (x : BitVec 4) (y : BitVec 4) (t : BitVec 4) (n : BitVec 4)
  /-- R190: Element-wise integer subtract. -/
  | visub (a : BitVec 4) (b : BitVec 4) (x : BitVec 4) (y : BitVec 4) (t : BitVec 4) (n : BitVec 4)
  /-- R190: Element-wise integer multiply. -/
  | vimul (a : BitVec 4) (b : BitVec 4) (x : BitVec 4) (y : BitVec 4) (t : BitVec 4) (n : BitVec 4)
  /-- R190: Element-wise integer minimum. -/
  | vimin (a : BitVec 4) (b : BitVec 4) (x : BitVec 4) (y : BitVec 4) (t : BitVec 4) (n : BitVec 4)
  /-- R190: Element-wise integer maximum. -/
  | vimax (a : BitVec 4) (b : BitVec 4) (x : BitVec 4) (y : BitVec 4) (t : BitVec 4) (n : BitVec 4)
  /-- R191: Element-wise compare giving 1 or 0. -/
  | vcmp (a : BitVec 4) (b : BitVec 4) (x : BitVec 4) (y : BitVec 4) (t : BitVec 4) (n : BitVec 4)
  /-- R192: Element-wise select of B or K by A. -/
  | vsel (a : BitVec 4) (b : BitVec 4) (x : BitVec 4) (y : BitVec 4) (t : BitVec 4) (n : BitVec 4)
  /-- R193: Element-wise bitwise AND. -/
  | vand (a : BitVec 4) (b : BitVec 4) (x : BitVec 4) (y : BitVec 4) (t : BitVec 4) (n : BitVec 4)
  /-- R193: Element-wise bitwise OR. -/
  | vor (a : BitVec 4) (b : BitVec 4) (x : BitVec 4) (y : BitVec 4) (t : BitVec 4) (n : BitVec 4)
  /-- R193: Element-wise bitwise XOR. -/
  | vxor (a : BitVec 4) (b : BitVec 4) (x : BitVec 4) (y : BitVec 4) (t : BitVec 4) (n : BitVec 4)
  /-- R193: Element-wise shift left. -/
  | vshl (a : BitVec 4) (b : BitVec 4) (x : BitVec 4) (y : BitVec 4) (t : BitVec 4) (n : BitVec 4)
  /-- R193: Element-wise logical shift right. -/
  | vshr (a : BitVec 4) (b : BitVec 4) (x : BitVec 4) (y : BitVec 4) (t : BitVec 4) (n : BitVec 4)
  /-- R193: Element-wise arithmetic shift right. -/
  | vsar (a : BitVec 4) (b : BitVec 4) (x : BitVec 4) (y : BitVec 4) (t : BitVec 4) (n : BitVec 4)
  /-- R194: Converts a tile's format and emits an overflow token. -/
  | vcvt (a : BitVec 4) (x : BitVec 4) (y : BitVec 4) (t : BitVec 4) (n : BitVec 4)
  /-- R194: Splits FP32 lanes into a BF16 head and an FP32 remainder. -/
  | vsplit (a : BitVec 4) (x : BitVec 4) (y : BitVec 4) (t : BitVec 4) (n : BitVec 4)
  /-- R195: Correctly rounded base-2 exponential per lane. -/
  | vexp2 (a : BitVec 4) (x : BitVec 4) (y : BitVec 4) (t : BitVec 4) (n : BitVec 4)
  /-- R195: Correctly rounded base-2 logarithm per lane. -/
  | vlog2 (a : BitVec 4) (x : BitVec 4) (y : BitVec 4) (t : BitVec 4) (n : BitVec 4)
  /-- R195: Correctly rounded reciprocal per lane. -/
  | vrcp (a : BitVec 4) (x : BitVec 4) (y : BitVec 4) (t : BitVec 4) (n : BitVec 4)
  /-- R195: Correctly rounded reciprocal square root per lane. -/
  | vrsq (a : BitVec 4) (x : BitVec 4) (y : BitVec 4) (t : BitVec 4) (n : BitVec 4)
  /-- R195: Correctly rounded square root per lane. -/
  | vsqrt (a : BitVec 4) (x : BitVec 4) (y : BitVec 4) (t : BitVec 4) (n : BitVec 4)
  /-- R195: Correctly rounded sin(pi x) per lane. -/
  | vsinpi (a : BitVec 4) (x : BitVec 4) (y : BitVec 4) (t : BitVec 4) (n : BitVec 4)
  /-- R195: Correctly rounded cos(pi x) per lane. -/
  | vcospi (a : BitVec 4) (x : BitVec 4) (y : BitVec 4) (t : BitVec 4) (n : BitVec 4)
  /-- R195: Correctly rounded tanh per lane. -/
  | vtanh (a : BitVec 4) (x : BitVec 4) (y : BitVec 4) (t : BitVec 4) (n : BitVec 4)
  /-- R196: Sums along an axis in a fixed tree order. -/
  | vrsum (a : BitVec 4) (x : BitVec 4) (y : BitVec 4) (t : BitVec 4) (n : BitVec 4)
  /-- R196: Takes the maximum along an axis. -/
  | vrmax (a : BitVec 4) (x : BitVec 4) (y : BitVec 4) (t : BitVec 4) (n : BitVec 4)
  /-- R196: Inclusive prefix sum along an axis in fixed order. -/
  | vscan (a : BitVec 4) (x : BitVec 4) (y : BitVec 4) (t : BitVec 4) (n : BitVec 4)
  /-- R197: Transposes a tile. -/
  | vtrans (a : BitVec 4) (x : BitVec 4) (y : BitVec 4) (t : BitVec 4) (n : BitVec 4)
  /-- R198: Broadcasts a scalar, row or column into a tile. -/
  | vbcast (a : BitVec 4) (x : BitVec 4) (y : BitVec 4) (t : BitVec 4) (n : BitVec 4)
  /-- R199: Gathers elements of A by indices in B. -/
  | vperm (a : BitVec 4) (b : BitVec 4) (x : BitVec 4) (y : BitVec 4) (t : BitVec 4) (n : BitVec 4)
  /-- R192: Clamps A between B and K. -/
  | vclamp (a : BitVec 4) (b : BitVec 4) (x : BitVec 4) (y : BitVec 4) (t : BitVec 4) (n : BitVec 4)
  /-- R200: Extracts an element, row or column. -/
  | vextr (a : BitVec 4) (b : BitVec 4) (x : BitVec 4) (y : BitVec 4) (t : BitVec 4) (n : BitVec 4)
  /-- R200: Inserts an element, row or column into a new tile. -/
  | vins (a : BitVec 4) (b : BitVec 4) (x : BitVec 4) (y : BitVec 4) (t : BitVec 4) (n : BitVec 4)
  /-- R198: Produces a zero tile of the K shape. -/
  | vzero (a : BitVec 4) (x : BitVec 4) (y : BitVec 4) (t : BitVec 4) (n : BitVec 4)
  /-- R206: Accumulates A times B transposed in groups of 32. -/
  | mma (a : BitVec 4) (b : BitVec 4) (x : BitVec 4) (y : BitVec 4) (t : BitVec 4) (n : BitVec 4)
  /-- R207: Scaled matrix multiply-accumulate using scale-network tokens. -/
  | mmas (a : BitVec 4) (b : BitVec 4) (x : BitVec 4) (y : BitVec 4) (t : BitVec 4) (n : BitVec 4)
  /-- R208: Matrix multiply-accumulate with weights from the weight buffer. -/
  | mmaw (a : BitVec 4) (b : BitVec 4) (x : BitVec 4) (y : BitVec 4) (t : BitVec 4) (n : BitVec 4)
  /-- R209: Zeroes an accumulator. -/
  | accz (a : BitVec 4) (x : BitVec 4) (y : BitVec 4) (t : BitVec 4) (n : BitVec 4)
  /-- R209: Reads an accumulator into a tile with conversion. -/
  | accrd (a : BitVec 4) (x : BitVec 4) (y : BitVec 4) (t : BitVec 4) (n : BitVec 4)
  /-- R209: Loads tile bits into an accumulator. -/
  | accld (a : BitVec 4) (x : BitVec 4) (y : BitVec 4) (t : BitVec 4) (n : BitVec 4)
  /-- R209: Adds an accumulator or tile into an accumulator. -/
  | accadd (a : BitVec 4) (b : BitVec 4) (x : BitVec 4) (y : BitVec 4) (t : BitVec 4) (n : BitVec 4)
  /-- R449: Cold reset holds every sequencer, resets registers and starts secure boot. -/
  | coldReset
  /-- R449: A write of RSTCTL.GO completes bring-up, writing MEMCFG and extending MREG1. -/
  | go
  /-- R442: SEQCTL RELEASE moves a HELD or HALTED sequencer to RUNNING at 0x0000. -/
  | sequencerRelease
  /-- R442: SEQCTL STOP halts a RUNNING or WAITING sequencer at its next instruction boundary. -/
  | sequencerStop
  /-- R442: A host write to MBOX0-MBOX3 lands asynchronously and may make the message cause pending. -/
  | mailboxWrite
  /-- R25: At an instruction boundary with IE set and an enabled cause pending, the lowest cause is taken. -/
  | interruptEntry
  /-- R26: CYCLE reaching TCMP makes the timer cause pending. -/
  | timerCompare
  /-- R50: A waiting WFE completes when its wake condition first holds. -/
  | wfeWake
  /-- R215: A write of CMNSCR moves the scratchpad/cache boundary and drops or loses bytes. -/
  | cmnscrWrite
  /-- R8: A write to a device or control register with no row of its own sets fields by their access codes. -/
  | registerWrite
  /-- R67: A receiver accepts a token from a route FIFO and takes it into custody. -/
  | tokenAccept
  /-- R72: A spilled token returns to the MS when an entry frees, in spill order. -/
  | spillReturn
  /-- R74: After a GEN bump each element sweeps its MS and spill area of stale tokens. -/
  | staleSweep
  /-- R149: A firing completes: operands leave custody and results enter FIFOs or SELF. -/
  | firingCompletion
  /-- R163: An accepted KILL annihilates tokens and entries in scope and is forwarded. -/
  | killTokenAccept
  /-- R163: Tokens in scope of a KILL in a spill area are annihilated within 2,048 cycles. -/
  | spillAreaAnnihilate
  /-- R164: An accepted COMMIT strips the colour of tokens and entries in scope and is forwarded. -/
  | commitTokenAccept
  /-- R361: A window marker reaches a context on one of its channels. -/
  | markTokenAccept
  /-- R361: Once its conditions hold, a context stages its checkpoint and forwards the marker. -/
  | cutStaging
  /-- R362: When every checkpoint and logged write is done, WINDOW_CLOSE is appended. -/
  | windowClose
  /-- R363: The recorder drains a staged checkpoint into the ring as WINDOW_OPEN. -/
  | checkpointDrain
  /-- R69: An announcement or prior outcome starts a census round that queries every cluster. -/
  | censusRoundStart
  /-- R76: A cluster's quiet counter for a frame reaches Q and its crier announces it. -/
  | quietIntervalExpiry
  /-- R69: All reports collected, the package crier judges the round and tells the clusters. -/
  | censusRoundOutcome
  /-- R57: A GEN bump completes once every cluster's table is updated and old custody is zero. -/
  | genBumpComplete
  /-- R87: The PA moves a virtual plot between plot-contexts in six steps. -/
  | plotMove
  /-- R86: A waiting GLOAD retries placement after a release of plot-contexts. -/
  | placementRetry
  /-- R86: After 2^27 cycles a waiting GLOAD gives up with NOPLACE. -/
  | placementBudgetExpiry
  /-- R170: An event operation sent from a moved context lands at its event cluster. -/
  | remoteEventOp
  /-- R170: A remote EVWAIT test is met at the event cluster and answers. -/
  | remoteEvwaitMet
  /-- R226: A stream entry refills from the cluster TLB, die TLB or a walk. -/
  | streamRefill
  /-- R220: A page walk finishes with a leaf or a fault. -/
  | tableWalkComplete
  /-- R236: A translated memory-port entry is sent under the port orders. -/
  | memoryEntrySend
  /-- R231: An access performs at its home in per-location order. -/
  | homeAccessPerform
  /-- R241: An answer returns and the entry emits its results. -/
  | memoryEntryAnswer
  /-- R229: A pool access to a moved or saved context is returned and later resent. -/
  | poolAccessReturn
  /-- R227: An invalidation completes once entries, walks and in-flight accesses are settled. -/
  | invalidationComplete
  /-- R290: The copy engine accepts a command from its FIFO when it has room. -/
  | ceCommandAccept
  /-- R291: A copy command ends, updates its signal and emits its completion. -/
  | ceCommandEnd
  /-- R295: A SIGOP notice reaches the Reeve, which raises the host interrupt. -/
  | sigopNotice
  /-- R296: QCTL CMD ENABLE activates a DISABLED queue if its fields are valid. -/
  | queueEnable
  /-- R299: QCTL CMD DISABLE stops fetching. -/
  | queueDisable
  /-- R296: QCTL CMD RESET clears indices and ERREC and leaves ERROR. -/
  | queueReset
  /-- R297: QCTL CMD SEAL writes a sealed capability. -/
  | queueSeal
  /-- R298: A wake record is verified and judged against the queue indices. -/
  | wakeRecord
  /-- R308: The Reeve chooses a ready queue, fetches, validates and issues a packet. -/
  | packetIssue
  /-- R302: Packet NOP completes at issue. -/
  | nopPacket
  /-- R303: Packet LAUNCH places, allocates a frame and injects arguments. -/
  | launch
  /-- R302: Packet WAITSIG blocks the queue until a signal meets its condition. -/
  | waitsig
  /-- R302: Packet SIGNAL performs its signal update at issue. -/
  | signal
  /-- R302: Packet COPY runs one copy command on a chosen cluster's CE. -/
  | copyPacket
  /-- R302: Packet GLOAD loads an image under the queue root and stores the status. -/
  | gloadPacket
  /-- R302: Packet GEVICT removes a placement and stores the status. -/
  | gevictPacket
  /-- R302: Packet BARRIER blocks issue until earlier packets complete. -/
  | barrier
  /-- R314: Packet RINGBIND BIND binds a ring to a frame with a binding hold. -/
  | ringbindBind
  /-- R314: Packet RINGBIND UNBIND stops delivery and releases the hold. -/
  | ringbindUnbind
  /-- R374: DEBUG packet PAUSE pauses a frame. -/
  | debugPause
  /-- R374: DEBUG packet RESUME resumes a frame. -/
  | debugResume
  /-- R374: DEBUG packet STEP adds a step budget to a context. -/
  | debugStep
  /-- R374: DEBUG packet WMARK cuts a window. -/
  | debugWmark
  /-- R374: DEBUG packet RWIN rolls a frame back. -/
  | debugRwin
  /-- R374: DEBUG packet RSTEP undoes logged writes. -/
  | debugRstep
  /-- R374: DEBUG packet WRETIRE retires windows. -/
  | debugWretire
  /-- R340: Packet PRIO sets a placement's priority as CPRIO does. -/
  | prioPacket
  /-- R299: A BLOCKED queue's condition ends and it returns to ACTIVE. -/
  | queueUnblock
  /-- R302: A read of the waited signal meets COND and WAITSIG completes. -/
  | waitsigSatisfied
  /-- R303: A blocked LAUNCH retries after a release of frames, spill, rings or plot-contexts. -/
  | launchRetry
  /-- R303: After 16 attempts or 2^27 Reeve cycles the LAUNCH fails with PLACEMENT. -/
  | launchBudgetExpiry
  /-- R303: A launched frame completes: signal update, frame freed, transient placement evicted, interrupt raised. -/
  | launchCompletion
  /-- R348: The Reeve saves a lower-priority plot-context into the eviction pool. -/
  | evictionSave
  /-- R348: After a release the Reeve restores evicted plots, earliest first. -/
  | evictedPlotRestore
  /-- R311: A received packet is authenticated and placed in its ring or dropped and counted. -/
  | ethernetPacketReceive
  /-- R312: TMO port cycles after a first unannounced record, an ARRIVE is sent. -/
  | arriveTimeout
  /-- R443: A write of ETXGO sends staged bytes as one UUD packet. -/
  | ethernetTransmit
  /-- R326: A record is written to a fault queue once it has room. -/
  | faultRecordWrite
  /-- R329: A settled fault's results enter their FIFOs once routes have room. -/
  | settlementTakeEffect
  /-- R338: A new PRIO lands at an element at its next firing boundary. -/
  | prioLanding
  /-- R368: A debugger pause or resume lands at an element at its firing boundary. -/
  | pauseLanding
  /-- R392: A bridge beat error is corrected, retransmitted or turned into POISON. -/
  | bridgeBeatError
  /-- R399: A remote request unanswered for 2^26 port cycles completes with POISON. -/
  | remoteRequestTimeout
  /-- R401: A READ packet reaches the peer's HN and is answered with RDATA. -/
  | krydeoftRead
  /-- R401: A WRITE packet performs at the peer's HN and is answered with WACK. -/
  | krydeoftWrite
  /-- R401: An ATOMIC packet performs at the peer's HN. -/
  | krydeoftAtomic
  /-- R415: An MCWRITE is checked and written at a receiver, or refused. -/
  | krydeoftMcwrite
  /-- R401: Read data returns to the issuing port. -/
  | krydeoftRdata
  /-- R401: A write acknowledgement returns to the issuing port. -/
  | krydeoftWack
  /-- R418: A multicast acknowledgement bitmap returns and is merged. -/
  | krydeoftMack
  /-- R415: A multicast peer with no answer after 2^26 cycles gets NAK_UNREACHABLE. -/
  | mcstPeerTimeout
  /-- R400: A CREDIT packet returns per-channel credit to a sender. -/
  | krydeoftCredit
  /-- R401: A LINK control packet is received on a port. -/
  | krydeoftLink
  /-- R403: Writing KPST ENA = 1 starts training of a DOWN link. -/
  | krydeoftPortEnable
  /-- R403: Writing KPST ENA = 0 takes an UP link to FENCING. -/
  | krydeoftPortDisable
  /-- R403: Training ends, and the link goes UP or FENCING. -/
  | linkTrained
  /-- R403: A lane or buffer error sends an UP link back to TRAINING. -/
  | linkError
  /-- R403: A FENCING link's buffer empties, and it becomes FENCED or DOWN. -/
  | fencingDrained
  /-- R403: After 2^20 port cycles in FENCING held packets are discarded. -/
  | fencingTimeout
  /-- R410: An INSTALL provisioning message installs a key and is answered with a receipt. -/
  | provisioningInstall
  /-- R410: A REVOKE provisioning message revokes a key and is answered with a receipt. -/
  | provisioningRevoke
  /-- R411: A REVOKE completes once lines sent under the key have performed. -/
  | revokeComplete
  /-- R445: An attestation request produces a signed response and a session. -/
  | attestationRequest
  /-- R435: Writing GPCTL ENA = 1 starts guest link training. -/
  | guestPortEnable
  /-- R435: Writing GPCTL ENA = 0 fences an ACTIVE guest port with CAUSE 7. -/
  | guestPortDisable
  /-- R435: Guest training ends: ACTIVE if all modules trained, else DOWN. -/
  | guestLinkTrained
  /-- R430: GPCMD0 PAUSE asks a guest context to pause. -/
  | guestPause
  /-- R430: GPCMD0 RESUME returns a paused guest context to RUN. -/
  | guestResume
  /-- R430: GPCMD0 SAVE asks the guest to save a context to a region. -/
  | guestSave
  /-- R430: GPCMD0 RESTORE asks the guest to restore a context from a region. -/
  | guestRestore
  /-- R425: The GES accepts a guest packet, assigns an RTAG and forwards it. -/
  | gqpAccept
  /-- R426: The guest's completion message for an RTAG arrives. -/
  | guestCompletion
  /-- R426: Once the packet's writes have performed the completion token is emitted. -/
  | guestCompletionEmit
  /-- R428: A guest translation request is translated and answered with TRSP. -/
  | guestTreq
  /-- R427: A guest read of a clean shared line. -/
  | rdshared
  /-- R427: A guest write-through of bytes of one line. -/
  | wrthru
  /-- R427: A guest 8-byte atomic performed at the home. -/
  | guestAtomic
  /-- R427: The guest drops its copy of a line. -/
  | clean
  /-- R427: The guest answers a recall of a line. -/
  | snpinvAnswer
  /-- R429: The guest confirms an invalidation and grants are removed. -/
  | invdone
  /-- R430: The guest reports a context paused. -/
  | paused
  /-- R430: The guest reports a context saved with its byte count. -/
  | saved
  /-- R430: The guest reports a context restored. -/
  | restored
  /-- R431: A guest fault record is completed by the GES and queued. -/
  | guestFaultRecord
  /-- R433: A guest duty bound expires without an answer, which is a breach. -/
  | guestDutyTimeout
  /-- R438: A host CXL.mem access performs at its HN under HDMKEY. -/
  | hostHdmAccess
  /-- R436: A host CXL.cache snoop is answered RspIHitI. -/
  | hostSnoop
  /-- R441: A HINVC write with SCOPE PAGE starts a page invalidation. -/
  | hostInvalidatePage
  /-- R441: A HINVC write with SCOPE ASID starts an ASID invalidation. -/
  | hostInvalidateAsid
  /-- R441: A HINVC write with SCOPE ALL starts a full invalidation. -/
  | hostInvalidateAll
  /-- R446: A TRIG write or a matching fault record triggers a snapshot latch. -/
  | snapshotTrigger
  /-- R448: Every 1,350,000 Reeve cycles power is measured and clocks lowered over the cap. -/
  | powerSample
  /-- R30: A fetched sequencer word with an unassigned opcode, fn, sub or sub-code, or a nonzero reserved field, traps with ILLEGAL. -/
  | illegalInstruction
  /-- R27: A fetch outside the local window, outside TWIN at Task level, or of a word with an uncorrectable error traps with BOUNDS, PERMISSION or INTEGRITY at that address. -/
  | fetchFault
  /-- R448: The cold-plate inlet temperature TINLET exceeding the module's limit makes blocks lower their clocks. -/
  | inletTemperatureLimit
  /-- R433: A malformed message from the guest, observed at the link layer, is a breach of CAUSE 6 and fences the port. -/
  | guestMalformedMessage
  deriving DecidableEq, Repr

end Sys2Proof
end

