-- ==== Sys2Proof/WellFormed.lean ====
section
/-! DEFINITION. What makes an instruction term well formed: the checks of R105 to R107 that concern one element word.
Every sequencer word's fields are free, and an event has none. -/

namespace Sys2Proof

/-- The seven fields of an element word (R103) and whether its operator uses operand B (R105). -/
structure ElemFields where
  opc : Nat
  a : BitVec 4
  b : BitVec 4
  x : BitVec 4
  y : BitVec 4
  t : BitVec 4
  n : BitVec 4
  usesB : Bool
  deriving DecidableEq, Repr

/-- The fields of an element operator's word, with the fixed codes of R105 (NONE for an operand that is not used, DROP for a destination
that is not produced) in their places; none for any other instruction. -/
def Instr.elemFields : Instr → Option ElemFields
  | .steer a b x y t n => some ⟨0x00, a, b, x, y, t, n, true⟩
  | .merge a b x y t n => some ⟨0x01, a, b, x, y, t, n, true⟩
  | .lcarry a b x y t n => some ⟨0x02, a, b, x, y, t, n, true⟩
  | .lexit a b x y t n => some ⟨0x03, a, b, x, y, t, n, true⟩
  | .count a b x n => some ⟨0x04, a, b, x, 15#4, 0#4, n, true⟩
  | .count2 a b x n => some ⟨0x05, a, b, x, 15#4, 0#4, n, true⟩
  | .bound a x y t n => some ⟨0x06, a, 15#4, x, y, t, n, false⟩
  | .endq a x y t n => some ⟨0x07, a, 15#4, x, y, t, n, false⟩
  | .gate a b x y t n => some ⟨0x08, a, b, x, y, t, n, true⟩
  | .join a b x y t n => some ⟨0x09, a, b, x, y, t, n, true⟩
  | .copy a x y t n => some ⟨0x0a, a, 15#4, x, y, t, n, false⟩
  | .sink a t n => some ⟨0x0b, a, 15#4, 15#4, 15#4, t, n, false⟩
  | .const a x y t n => some ⟨0x0c, a, 15#4, x, y, t, n, false⟩
  | .spect a b x y t n => some ⟨0x0d, a, b, x, y, t, n, true⟩
  | .commit a b x y n => some ⟨0x0e, a, b, x, y, 0#4, n, true⟩
  | .kill a x y n => some ⟨0x0f, a, 15#4, x, y, 0#4, n, false⟩
  | .fnew a b x y n => some ⟨0x10, a, b, x, y, 0#4, n, true⟩
  | .fret a b x n => some ⟨0x11, a, b, x, 15#4, 0#4, n, true⟩
  | .colalloc a x y t n => some ⟨0x12, a, 15#4, x, y, t, n, false⟩
  | .colret a x y t n => some ⟨0x13, a, 15#4, x, y, t, n, false⟩
  | .pack a b x y t n => some ⟨0x14, a, b, x, y, t, n, true⟩
  | .unpack a x y t n => some ⟨0x15, a, 15#4, x, y, t, n, false⟩
  | .iadd a b x y t n => some ⟨0x20, a, b, x, y, t, n, true⟩
  | .isub a b x y t n => some ⟨0x21, a, b, x, y, t, n, true⟩
  | .imul a b x y t n => some ⟨0x22, a, b, x, y, t, n, true⟩
  | .imulh a b x y t n => some ⟨0x23, a, b, x, y, t, n, true⟩
  | .idiv a b x y t n => some ⟨0x24, a, b, x, y, t, n, true⟩
  | .irem a b x y t n => some ⟨0x25, a, b, x, y, t, n, true⟩
  | .elAnd a b x y t n => some ⟨0x26, a, b, x, y, t, n, true⟩
  | .elOr a b x y t n => some ⟨0x27, a, b, x, y, t, n, true⟩
  | .elXor a b x y t n => some ⟨0x28, a, b, x, y, t, n, true⟩
  | .elAndn a b x y t n => some ⟨0x29, a, b, x, y, t, n, true⟩
  | .elShl a b x y t n => some ⟨0x2a, a, b, x, y, t, n, true⟩
  | .elShr a b x y t n => some ⟨0x2b, a, b, x, y, t, n, true⟩
  | .elSar a b x y t n => some ⟨0x2c, a, b, x, y, t, n, true⟩
  | .elRot a b x y t n => some ⟨0x2d, a, b, x, y, t, n, true⟩
  | .elMin a b x y t n => some ⟨0x2e, a, b, x, y, t, n, true⟩
  | .elMax a b x y t n => some ⟨0x2f, a, b, x, y, t, n, true⟩
  | .elMinu a b x y t n => some ⟨0x30, a, b, x, y, t, n, true⟩
  | .elMaxu a b x y t n => some ⟨0x31, a, b, x, y, t, n, true⟩
  | .cmp a b x y t n => some ⟨0x32, a, b, x, y, t, n, true⟩
  | .sel a b x y t n => some ⟨0x33, a, b, x, y, t, n, true⟩
  | .elBfx a x y t n => some ⟨0x34, a, 15#4, x, y, t, n, false⟩
  | .elBfi a b x y t n => some ⟨0x35, a, b, x, y, t, n, true⟩
  | .elClz a x y t n => some ⟨0x36, a, 15#4, x, y, t, n, false⟩
  | .elPopc a x y t n => some ⟨0x37, a, 15#4, x, y, t, n, false⟩
  | .addsat a b x y t n => some ⟨0x38, a, b, x, y, t, n, true⟩
  | .abs a x y t n => some ⟨0x39, a, 15#4, x, y, t, n, false⟩
  | .agen a b x y n => some ⟨0x40, a, b, x, y, 0#4, n, true⟩
  | .ainc a b x y t n => some ⟨0x41, a, b, x, y, t, n, true⟩
  | .aidx a b x y t n => some ⟨0x42, a, b, x, y, t, n, true⟩
  | .ldt a b x y t n => some ⟨0x43, a, b, x, y, t, n, true⟩
  | .stt a b x y t n => some ⟨0x44, a, b, x, y, t, n, true⟩
  | .lds a b x y t n => some ⟨0x45, a, b, x, y, t, n, true⟩
  | .sts a b x y t n => some ⟨0x46, a, b, x, y, t, n, true⟩
  | .atom a b x y t n => some ⟨0x47, a, b, x, y, t, n, true⟩
  | .atomr a b x y t n => some ⟨0x48, a, b, x, y, t, n, true⟩
  | .casr a b x y t n => some ⟨0x49, a, b, x, y, t, n, true⟩
  | .elFence a b x y t n => some ⟨0x4a, a, b, x, y, t, n, true⟩
  | .pref a b x y t n => some ⟨0x4b, a, b, x, y, t, n, true⟩
  | .wbld a b x y t n => some ⟨0x4c, a, b, x, y, t, n, true⟩
  | .cpy a b x t n => some ⟨0x50, a, b, x, 15#4, t, n, true⟩
  | .cpyw a b x t n => some ⟨0x51, a, b, x, 15#4, t, n, true⟩
  | .mcst a b x y t n => some ⟨0x52, a, b, x, y, t, n, true⟩
  | .sigop a b x y t n => some ⟨0x53, a, b, x, y, t, n, true⟩
  | .ringpop a b x y t n => some ⟨0x54, a, b, x, y, t, n, true⟩
  | .ringrel a b x y t n => some ⟨0x55, a, b, x, y, t, n, true⟩
  | .gqp a b x t n => some ⟨0x56, a, b, x, 15#4, t, n, true⟩
  | .evset a x y t n => some ⟨0x57, a, 15#4, x, y, t, n, false⟩
  | .evwait a x y t n => some ⟨0x58, a, 15#4, x, y, t, n, false⟩
  | .trap a b x y t n => some ⟨0x59, a, b, x, y, t, n, true⟩
  | .brkp a x y t n => some ⟨0x5a, a, 15#4, x, y, t, n, false⟩
  | .vadd a b x y t n => some ⟨0x60, a, b, x, y, t, n, true⟩
  | .vsub a b x y t n => some ⟨0x61, a, b, x, y, t, n, true⟩
  | .vmul a b x y t n => some ⟨0x62, a, b, x, y, t, n, true⟩
  | .vfma a b x y t n => some ⟨0x63, a, b, x, y, t, n, true⟩
  | .vmin a b x y t n => some ⟨0x64, a, b, x, y, t, n, true⟩
  | .vmax a b x y t n => some ⟨0x65, a, b, x, y, t, n, true⟩
  | .vabs a x y t n => some ⟨0x66, a, 15#4, x, y, t, n, false⟩
  | .vneg a x y t n => some ⟨0x67, a, 15#4, x, y, t, n, false⟩
  | .viadd a b x y t n => some ⟨0x68, a, b, x, y, t, n, true⟩
  | .visub a b x y t n => some ⟨0x69, a, b, x, y, t, n, true⟩
  | .vimul a b x y t n => some ⟨0x6a, a, b, x, y, t, n, true⟩
  | .vimin a b x y t n => some ⟨0x6b, a, b, x, y, t, n, true⟩
  | .vimax a b x y t n => some ⟨0x6c, a, b, x, y, t, n, true⟩
  | .vcmp a b x y t n => some ⟨0x6d, a, b, x, y, t, n, true⟩
  | .vsel a b x y t n => some ⟨0x6e, a, b, x, y, t, n, true⟩
  | .vand a b x y t n => some ⟨0x6f, a, b, x, y, t, n, true⟩
  | .vor a b x y t n => some ⟨0x70, a, b, x, y, t, n, true⟩
  | .vxor a b x y t n => some ⟨0x71, a, b, x, y, t, n, true⟩
  | .vshl a b x y t n => some ⟨0x72, a, b, x, y, t, n, true⟩
  | .vshr a b x y t n => some ⟨0x73, a, b, x, y, t, n, true⟩
  | .vsar a b x y t n => some ⟨0x74, a, b, x, y, t, n, true⟩
  | .vcvt a x y t n => some ⟨0x75, a, 15#4, x, y, t, n, false⟩
  | .vsplit a x y t n => some ⟨0x76, a, 15#4, x, y, t, n, false⟩
  | .vexp2 a x y t n => some ⟨0x77, a, 15#4, x, y, t, n, false⟩
  | .vlog2 a x y t n => some ⟨0x78, a, 15#4, x, y, t, n, false⟩
  | .vrcp a x y t n => some ⟨0x79, a, 15#4, x, y, t, n, false⟩
  | .vrsq a x y t n => some ⟨0x7a, a, 15#4, x, y, t, n, false⟩
  | .vsqrt a x y t n => some ⟨0x7b, a, 15#4, x, y, t, n, false⟩
  | .vsinpi a x y t n => some ⟨0x7c, a, 15#4, x, y, t, n, false⟩
  | .vcospi a x y t n => some ⟨0x7d, a, 15#4, x, y, t, n, false⟩
  | .vtanh a x y t n => some ⟨0x7e, a, 15#4, x, y, t, n, false⟩
  | .vrsum a x y t n => some ⟨0x7f, a, 15#4, x, y, t, n, false⟩
  | .vrmax a x y t n => some ⟨0x80, a, 15#4, x, y, t, n, false⟩
  | .vscan a x y t n => some ⟨0x81, a, 15#4, x, y, t, n, false⟩
  | .vtrans a x y t n => some ⟨0x82, a, 15#4, x, y, t, n, false⟩
  | .vbcast a x y t n => some ⟨0x83, a, 15#4, x, y, t, n, false⟩
  | .vperm a b x y t n => some ⟨0x84, a, b, x, y, t, n, true⟩
  | .vclamp a b x y t n => some ⟨0x85, a, b, x, y, t, n, true⟩
  | .vextr a b x y t n => some ⟨0x86, a, b, x, y, t, n, true⟩
  | .vins a b x y t n => some ⟨0x87, a, b, x, y, t, n, true⟩
  | .vzero a x y t n => some ⟨0x88, a, 15#4, x, y, t, n, false⟩
  | .mma a b x y t n => some ⟨0xa0, a, b, x, y, t, n, true⟩
  | .mmas a b x y t n => some ⟨0xa1, a, b, x, y, t, n, true⟩
  | .mmaw a b x y t n => some ⟨0xa2, a, b, x, y, t, n, true⟩
  | .accz a x y t n => some ⟨0xa3, a, 15#4, x, y, t, n, false⟩
  | .accrd a x y t n => some ⟨0xa4, a, 15#4, x, y, t, n, false⟩
  | .accld a x y t n => some ⟨0xa5, a, 15#4, x, y, t, n, false⟩
  | .accadd a b x y t n => some ⟨0xa6, a, b, x, y, t, n, true⟩
  | _ => none

/-- R146, R150, R176, R204: operand B of LCARRY (with GB = 0), COUNT, COUNT2, AGEN and ACCADD (with SRCM = 0) may be NONE. -/
def ElemFields.optionalB (f : ElemFields) : Bool := f.opc == 0x02 || f.opc == 0x04 || f.opc == 0x05 || f.opc == 0x40 || f.opc == 0xa6

/-- R105: a used operand is not NONE. The vacant word of R115, a SINK whose SA is NONE, is the one exception. -/
def ElemFields.operandsPresent (f : ElemFields) : Bool :=
  (f.a != 15#4 || (f.opc == 0x0b && f.t == 0#4 && f.n == 0#4)) && (!f.usesB || f.b != 15#4 || f.optionalB)

/-- R107: tag actions 12 to 15 are rejected. -/
def ElemFields.tagAssigned (f : ElemFields) : Bool := f.t.toNat < 12

/-- R107: LOADI, FNEW and FRET require operand B to be used. -/
def ElemFields.tagOperand (f : ElemFields) : Bool :=
  (f.usesB && f.b != 15#4) || !(f.t == 5#4 || f.t == 10#4 || f.t == 11#4)

/-- R106: D0 and D1 are not both SELF. -/
def ElemFields.oneSelf (f : ElemFields) : Bool := !(f.x == 14#4 && f.y == 14#4)

/-- R105: one input port is named by one operand only. -/
def ElemFields.portsDiffer (f : ElemFields) : Bool := !(f.usesB && f.a == f.b && f.a.toNat < 12)

/-- The checks that one element word must pass. -/
def ElemFields.ok (f : ElemFields) : Bool :=
  f.operandsPresent && f.tagAssigned && f.tagOperand && f.oneSelf && f.portsDiffer

/-- A well-formed instruction. -/
def Instr.wf (i : Instr) : Bool :=
  match i.elemFields with
  | some f => f.ok
  | none => true

end Sys2Proof
end

