-- ==== Sys2Proof/Decode.lean ====
section
/-! DEFINITION. From words to instructions and back (R29, R30, R103, R113).
A sequencer word and an element word share 32 bits: which of the two a word is depends on where it stands, in local memory or
in a context's instruction slot. `decodeSeq` reads the one and `decodeElem` the other, each total, refusing a reserved encoding with none. -/

namespace Sys2Proof

/-- The field of `n` bits of a word that starts at bit `lo`. -/
def fld (w : BitVec 32) (lo n : Nat) : BitVec n := BitVec.ofNat n (w.toNat / 2 ^ lo)

/-- Major opcode 0x00 (R36). -/
def decodeInt (w : BitVec 32) : Option Instr :=
  match (fld w 0 11).toNat with
  | 0x0 => some (.add (fld w 21 5) (fld w 16 5) (fld w 11 5))
  | 0x1 => some (.sub (fld w 21 5) (fld w 16 5) (fld w 11 5))
  | 0x2 => some (.and (fld w 21 5) (fld w 16 5) (fld w 11 5))
  | 0x3 => some (.or (fld w 21 5) (fld w 16 5) (fld w 11 5))
  | 0x4 => some (.xor (fld w 21 5) (fld w 16 5) (fld w 11 5))
  | 0x5 => some (.andn (fld w 21 5) (fld w 16 5) (fld w 11 5))
  | 0x6 => some (.shl (fld w 21 5) (fld w 16 5) (fld w 11 5))
  | 0x7 => some (.shr (fld w 21 5) (fld w 16 5) (fld w 11 5))
  | 0x8 => some (.sar (fld w 21 5) (fld w 16 5) (fld w 11 5))
  | 0x9 => some (.rot (fld w 21 5) (fld w 16 5) (fld w 11 5))
  | _ => none

/-- Major opcode 0x01 (R37). -/
def decodeMul (w : BitVec 32) : Option Instr :=
  match (fld w 0 11).toNat with
  | 0x0 => some (.mul (fld w 21 5) (fld w 16 5) (fld w 11 5))
  | 0x1 => some (.mulh (fld w 21 5) (fld w 16 5) (fld w 11 5))
  | 0x2 => some (.mulhu (fld w 21 5) (fld w 16 5) (fld w 11 5))
  | 0x3 => some (.div (fld w 21 5) (fld w 16 5) (fld w 11 5))
  | 0x4 => some (.divu (fld w 21 5) (fld w 16 5) (fld w 11 5))
  | 0x5 => some (.rem (fld w 21 5) (fld w 16 5) (fld w 11 5))
  | 0x6 => some (.remu (fld w 21 5) (fld w 16 5) (fld w 11 5))
  | _ => none

/-- Major opcode 0x02 (R38). -/
def decodeCmp (w : BitVec 32) : Option Instr :=
  match (fld w 0 11).toNat with
  | 0x0 => some (.slt (fld w 21 5) (fld w 16 5) (fld w 11 5))
  | 0x1 => some (.sltu (fld w 21 5) (fld w 16 5) (fld w 11 5))
  | 0x2 => some (.seq (fld w 21 5) (fld w 16 5) (fld w 11 5))
  | 0x3 => some (.min (fld w 21 5) (fld w 16 5) (fld w 11 5))
  | 0x4 => some (.max (fld w 21 5) (fld w 16 5) (fld w 11 5))
  | 0x5 => some (.minu (fld w 21 5) (fld w 16 5) (fld w 11 5))
  | 0x6 => some (.maxu (fld w 21 5) (fld w 16 5) (fld w 11 5))
  | _ => none

/-- Major opcode 0x03 (R39). -/
def decodeCount (w : BitVec 32) : Option Instr :=
  match (fld w 0 11).toNat with
  | 0x0 => if fld w 11 5 = 0 then some (.clz (fld w 21 5) (fld w 16 5)) else none
  | 0x1 => if fld w 11 5 = 0 then some (.ctz (fld w 21 5) (fld w 16 5)) else none
  | 0x2 => if fld w 11 5 = 0 then some (.popc (fld w 21 5) (fld w 16 5)) else none
  | _ => none

/-- Major opcode 0x25 (R46). -/
def decodeCr (w : BitVec 32) : Option Instr :=
  match (fld w 12 4).toNat with
  | 0x0 => if fld w 16 5 = 0 then some (.crrd (fld w 21 5) (fld w 0 12)) else none
  | 0x1 => if fld w 21 5 = 0 then some (.crwr (fld w 16 5) (fld w 0 12)) else none
  | 0x2 => some (.crset (fld w 21 5) (fld w 16 5) (fld w 0 12))
  | 0x3 => some (.crclr (fld w 21 5) (fld w 16 5) (fld w 0 12))
  | _ => none

/-- Major opcode 0x26 (R48). -/
def decodeAmo (w : BitVec 32) : Option Instr :=
  match (fld w 0 6).toNat with
  | 0x0 => if fld w 6 5 = 0 then some (.amoswap (fld w 21 5) (fld w 16 5) (fld w 11 5)) else none
  | 0x1 => some (.amocas (fld w 21 5) (fld w 16 5) (fld w 11 5) (fld w 6 5))
  | 0x2 => if fld w 6 5 = 0 then some (.amoadd (fld w 21 5) (fld w 16 5) (fld w 11 5)) else none
  | 0x3 => if fld w 6 5 = 0 then some (.amoand (fld w 21 5) (fld w 16 5) (fld w 11 5)) else none
  | 0x4 => if fld w 6 5 = 0 then some (.amoor (fld w 21 5) (fld w 16 5) (fld w 11 5)) else none
  | 0x5 => if fld w 6 5 = 0 then some (.amoxor (fld w 21 5) (fld w 16 5) (fld w 11 5)) else none
  | 0x6 => if fld w 6 5 = 0 then some (.amomin (fld w 21 5) (fld w 16 5) (fld w 11 5)) else none
  | 0x7 => if fld w 6 5 = 0 then some (.amomax (fld w 21 5) (fld w 16 5) (fld w 11 5)) else none
  | _ => none

/-- Major opcode 0x27 (R28, R49, R50). -/
def decodeSys (w : BitVec 32) : Option Instr :=
  match (fld w 0 11).toNat with
  | 0x0 => if fld w 21 5 = 0 ∧ fld w 16 5 = 0 ∧ fld w 11 5 = 0 then some (.nop) else none
  | 0x1 => if fld w 21 5 = 0 ∧ fld w 16 5 = 0 ∧ fld w 11 5 = 0 then some (.fence) else none
  | 0x2 => if fld w 21 5 = 0 ∧ fld w 16 5 = 0 ∧ fld w 11 5 = 0 then some (.tret) else none
  | 0x3 => if fld w 21 5 = 0 ∧ fld w 16 5 = 0 ∧ fld w 11 5 = 0 then some (.wfe) else none
  | 0x4 => if fld w 21 5 = 0 ∧ fld w 11 5 = 0 then some (.sev (fld w 16 5)) else none
  | 0x5 => if fld w 21 5 = 0 ∧ fld w 16 5 = 0 ∧ fld w 11 5 = 0 then some (.halt) else none
  | _ => none

/-- Major opcode 0x30 (R100, R101, R102, R96, R97, R98, R99). -/
def decodeGraph (w : BitVec 32) : Option Instr :=
  match (fld w 0 6).toNat with
  | 0x0 => if fld w 6 5 = 0 then some (.gload (fld w 21 5) (fld w 16 5) (fld w 11 5)) else none
  | 0x1 => if fld w 11 5 = 0 ∧ fld w 6 5 = 0 then some (.gevict (fld w 21 5) (fld w 16 5)) else none
  | 0x2 => some (.falloc (fld w 21 5) (fld w 16 5) (fld w 11 5) (fld w 6 5))
  | 0x3 => if fld w 11 5 = 0 ∧ fld w 6 5 = 0 then some (.ffree (fld w 21 5) (fld w 16 5)) else none
  | 0x4 => if fld w 11 5 = 0 ∧ fld w 6 5 = 0 then some (.fkill (fld w 21 5) (fld w 16 5)) else none
  | 0x5 => some (.tinj (fld w 21 5) (fld w 16 5) (fld w 11 5) (fld w 6 5))
  | 0x6 => if fld w 6 5 = 0 then some (.census (fld w 21 5) (fld w 16 5) (fld w 11 5)) else none
  | _ => none

/-- Major opcode 0x31 (R254). -/
def decodeTlbi (w : BitVec 32) : Option Instr :=
  match (fld w 0 11).toNat with
  | 0x0 => if fld w 21 5 = 0 then some (.tlbiPage (fld w 16 5) (fld w 11 5)) else none
  | 0x1 => if fld w 21 5 = 0 ∧ fld w 16 5 = 0 then some (.tlbiAsid (fld w 11 5)) else none
  | 0x2 => if fld w 21 5 = 0 ∧ fld w 16 5 = 0 ∧ fld w 11 5 = 0 then some (.tlbiAll) else none
  | _ => none

/-- Major opcode 0x32 (R329, R338, R341, R344). -/
def decodeFault (w : BitVec 32) : Option Instr :=
  match (fld w 0 6).toNat with
  | 0x0 => if fld w 6 5 = 0 then some (.cprio (fld w 21 5) (fld w 16 5) (fld w 11 5)) else none
  | 0x1 => some (.csave (fld w 21 5) (fld w 16 5) (fld w 11 5) (fld w 6 5))
  | 0x2 => some (.crstr (fld w 21 5) (fld w 16 5) (fld w 11 5) (fld w 6 5))
  | 0x3 => some (.fres (fld w 21 5) (fld w 16 5) (fld w 11 5) (fld w 6 5))
  | 0x4 => if fld w 11 5 = 0 ∧ fld w 6 5 = 0 then some (.fdisc (fld w 21 5) (fld w 16 5)) else none
  | 0x5 => if fld w 11 5 = 0 ∧ fld w 6 5 = 0 then some (.fretry (fld w 21 5) (fld w 16 5)) else none
  | _ => none

/-- Major opcode 0x33 (R364, R367, R369, R371). -/
def decodeWindow (w : BitVec 32) : Option Instr :=
  match (fld w 0 6).toNat with
  | 0x0 => if fld w 6 5 = 0 then some (.wmark (fld w 21 5) (fld w 16 5) (fld w 11 5)) else none
  | 0x1 => if fld w 6 5 = 0 then some (.wretire (fld w 21 5) (fld w 16 5) (fld w 11 5)) else none
  | 0x2 => if fld w 6 5 = 0 then some (.rwin (fld w 21 5) (fld w 16 5) (fld w 11 5)) else none
  | 0x3 => if fld w 6 5 = 0 then some (.rstep (fld w 21 5) (fld w 16 5) (fld w 11 5)) else none
  | 0x4 => if fld w 6 5 = 0 then some (.fstep (fld w 21 5) (fld w 16 5) (fld w 11 5)) else none
  | 0x5 => some (.wcfg (fld w 21 5) (fld w 16 5) (fld w 11 5) (fld w 6 5))
  | _ => none

/-- Major opcode 0x34 (R446). -/
def decodeSnap (w : BitVec 32) : Option Instr :=
  match (fld w 0 11).toNat with
  | 0x0 => if fld w 11 5 = 0 then some (.snap (fld w 21 5) (fld w 16 5)) else none
  | _ => none

/-- R30: a sequencer word by its major opcode. An unassigned opcode, function code or sub-code, or a nonzero reserved field, is none: the
word traps with ILLEGAL. -/
def decodeSeq (w : BitVec 32) : Option Instr :=
  match (fld w 26 6).toNat with
  | 0x00 => decodeInt w
  | 0x01 => decodeMul w
  | 0x02 => decodeCmp w
  | 0x03 => decodeCount w
  | 0x04 => some (.addi (fld w 21 5) (fld w 16 5) (fld w 0 16))
  | 0x05 => some (.andi (fld w 21 5) (fld w 16 5) (fld w 0 16))
  | 0x06 => some (.ori (fld w 21 5) (fld w 16 5) (fld w 0 16))
  | 0x07 => some (.xori (fld w 21 5) (fld w 16 5) (fld w 0 16))
  | 0x08 => if fld w 6 10 = 0 then some (.shli (fld w 21 5) (fld w 16 5) (fld w 0 6)) else none
  | 0x09 => if fld w 6 10 = 0 then some (.shri (fld w 21 5) (fld w 16 5) (fld w 0 6)) else none
  | 0x0a => if fld w 6 10 = 0 then some (.sari (fld w 21 5) (fld w 16 5) (fld w 0 6)) else none
  | 0x0b => some (.slti (fld w 21 5) (fld w 16 5) (fld w 0 16))
  | 0x0c => some (.sltiu (fld w 21 5) (fld w 16 5) (fld w 0 16))
  | 0x0d => some (.ldhi (fld w 21 5) (fld w 16 5) (fld w 0 16))
  | 0x0e => some (.bfx (fld w 21 5) (fld w 16 5) (fld w 8 8) (fld w 0 8))
  | 0x0f => some (.bfxs (fld w 21 5) (fld w 16 5) (fld w 8 8) (fld w 0 8))
  | 0x10 => some (.bfi (fld w 21 5) (fld w 16 5) (fld w 8 8) (fld w 0 8))
  | 0x11 => some (.lb (fld w 21 5) (fld w 16 5) (fld w 0 16))
  | 0x12 => some (.lbu (fld w 21 5) (fld w 16 5) (fld w 0 16))
  | 0x13 => some (.lh (fld w 21 5) (fld w 16 5) (fld w 0 16))
  | 0x14 => some (.lhu (fld w 21 5) (fld w 16 5) (fld w 0 16))
  | 0x15 => some (.lw (fld w 21 5) (fld w 16 5) (fld w 0 16))
  | 0x16 => some (.lwu (fld w 21 5) (fld w 16 5) (fld w 0 16))
  | 0x17 => some (.ld (fld w 21 5) (fld w 16 5) (fld w 0 16))
  | 0x18 => some (.sb (fld w 21 5) (fld w 16 5) (fld w 0 16))
  | 0x19 => some (.sh (fld w 21 5) (fld w 16 5) (fld w 0 16))
  | 0x1a => some (.sw (fld w 21 5) (fld w 16 5) (fld w 0 16))
  | 0x1b => some (.sd (fld w 21 5) (fld w 16 5) (fld w 0 16))
  | 0x1c => some (.beq (fld w 21 5) (fld w 16 5) (fld w 0 16))
  | 0x1d => some (.bne (fld w 21 5) (fld w 16 5) (fld w 0 16))
  | 0x1e => some (.blt (fld w 21 5) (fld w 16 5) (fld w 0 16))
  | 0x1f => some (.bge (fld w 21 5) (fld w 16 5) (fld w 0 16))
  | 0x20 => some (.bltu (fld w 21 5) (fld w 16 5) (fld w 0 16))
  | 0x21 => some (.bgeu (fld w 21 5) (fld w 16 5) (fld w 0 16))
  | 0x22 => some (.j (fld w 0 26))
  | 0x23 => some (.jal (fld w 0 26))
  | 0x24 => some (.jalr (fld w 21 5) (fld w 16 5) (fld w 0 16))
  | 0x25 => decodeCr w
  | 0x26 => decodeAmo w
  | 0x27 => decodeSys w
  | 0x28 => if fld w 16 10 = 0 then some (.syscall (fld w 0 16)) else none
  | 0x29 => if fld w 16 10 = 0 then some (.brk (fld w 0 16)) else none
  | 0x30 => decodeGraph w
  | 0x31 => decodeTlbi w
  | 0x32 => decodeFault w
  | 0x33 => decodeWindow w
  | 0x34 => decodeSnap w
  | _ => none

/-- R113: the operator of an opcode with the given fields; none for a reserved opcode, and for a field that R105 fixes and that holds
another code. -/
def elemOf (opc : Nat) (a b x y t n : BitVec 4) : Option Instr :=
  match opc with
  | 0x00 => some (.steer a b x y t n)
  | 0x01 => some (.merge a b x y t n)
  | 0x02 => some (.lcarry a b x y t n)
  | 0x03 => some (.lexit a b x y t n)
  | 0x04 => if y = 15#4 ∧ t = 0#4 then some (.count a b x n) else none
  | 0x05 => if y = 15#4 ∧ t = 0#4 then some (.count2 a b x n) else none
  | 0x06 => if b = 15#4 then some (.bound a x y t n) else none
  | 0x07 => if b = 15#4 then some (.endq a x y t n) else none
  | 0x08 => some (.gate a b x y t n)
  | 0x09 => some (.join a b x y t n)
  | 0x0a => if b = 15#4 then some (.copy a x y t n) else none
  | 0x0b => if b = 15#4 ∧ x = 15#4 ∧ y = 15#4 then some (.sink a t n) else none
  | 0x0c => if b = 15#4 then some (.const a x y t n) else none
  | 0x0d => some (.spect a b x y t n)
  | 0x0e => if t = 0#4 then some (.commit a b x y n) else none
  | 0x0f => if b = 15#4 ∧ t = 0#4 then some (.kill a x y n) else none
  | 0x10 => if t = 0#4 then some (.fnew a b x y n) else none
  | 0x11 => if y = 15#4 ∧ t = 0#4 then some (.fret a b x n) else none
  | 0x12 => if b = 15#4 then some (.colalloc a x y t n) else none
  | 0x13 => if b = 15#4 then some (.colret a x y t n) else none
  | 0x14 => some (.pack a b x y t n)
  | 0x15 => if b = 15#4 then some (.unpack a x y t n) else none
  | 0x20 => some (.iadd a b x y t n)
  | 0x21 => some (.isub a b x y t n)
  | 0x22 => some (.imul a b x y t n)
  | 0x23 => some (.imulh a b x y t n)
  | 0x24 => some (.idiv a b x y t n)
  | 0x25 => some (.irem a b x y t n)
  | 0x26 => some (.elAnd a b x y t n)
  | 0x27 => some (.elOr a b x y t n)
  | 0x28 => some (.elXor a b x y t n)
  | 0x29 => some (.elAndn a b x y t n)
  | 0x2a => some (.elShl a b x y t n)
  | 0x2b => some (.elShr a b x y t n)
  | 0x2c => some (.elSar a b x y t n)
  | 0x2d => some (.elRot a b x y t n)
  | 0x2e => some (.elMin a b x y t n)
  | 0x2f => some (.elMax a b x y t n)
  | 0x30 => some (.elMinu a b x y t n)
  | 0x31 => some (.elMaxu a b x y t n)
  | 0x32 => some (.cmp a b x y t n)
  | 0x33 => some (.sel a b x y t n)
  | 0x34 => if b = 15#4 then some (.elBfx a x y t n) else none
  | 0x35 => some (.elBfi a b x y t n)
  | 0x36 => if b = 15#4 then some (.elClz a x y t n) else none
  | 0x37 => if b = 15#4 then some (.elPopc a x y t n) else none
  | 0x38 => some (.addsat a b x y t n)
  | 0x39 => if b = 15#4 then some (.abs a x y t n) else none
  | 0x40 => if t = 0#4 then some (.agen a b x y n) else none
  | 0x41 => some (.ainc a b x y t n)
  | 0x42 => some (.aidx a b x y t n)
  | 0x43 => some (.ldt a b x y t n)
  | 0x44 => some (.stt a b x y t n)
  | 0x45 => some (.lds a b x y t n)
  | 0x46 => some (.sts a b x y t n)
  | 0x47 => some (.atom a b x y t n)
  | 0x48 => some (.atomr a b x y t n)
  | 0x49 => some (.casr a b x y t n)
  | 0x4a => some (.elFence a b x y t n)
  | 0x4b => some (.pref a b x y t n)
  | 0x4c => some (.wbld a b x y t n)
  | 0x50 => if y = 15#4 then some (.cpy a b x t n) else none
  | 0x51 => if y = 15#4 then some (.cpyw a b x t n) else none
  | 0x52 => some (.mcst a b x y t n)
  | 0x53 => some (.sigop a b x y t n)
  | 0x54 => some (.ringpop a b x y t n)
  | 0x55 => some (.ringrel a b x y t n)
  | 0x56 => if y = 15#4 then some (.gqp a b x t n) else none
  | 0x57 => if b = 15#4 then some (.evset a x y t n) else none
  | 0x58 => if b = 15#4 then some (.evwait a x y t n) else none
  | 0x59 => some (.trap a b x y t n)
  | 0x5a => if b = 15#4 then some (.brkp a x y t n) else none
  | 0x60 => some (.vadd a b x y t n)
  | 0x61 => some (.vsub a b x y t n)
  | 0x62 => some (.vmul a b x y t n)
  | 0x63 => some (.vfma a b x y t n)
  | 0x64 => some (.vmin a b x y t n)
  | 0x65 => some (.vmax a b x y t n)
  | 0x66 => if b = 15#4 then some (.vabs a x y t n) else none
  | 0x67 => if b = 15#4 then some (.vneg a x y t n) else none
  | 0x68 => some (.viadd a b x y t n)
  | 0x69 => some (.visub a b x y t n)
  | 0x6a => some (.vimul a b x y t n)
  | 0x6b => some (.vimin a b x y t n)
  | 0x6c => some (.vimax a b x y t n)
  | 0x6d => some (.vcmp a b x y t n)
  | 0x6e => some (.vsel a b x y t n)
  | 0x6f => some (.vand a b x y t n)
  | 0x70 => some (.vor a b x y t n)
  | 0x71 => some (.vxor a b x y t n)
  | 0x72 => some (.vshl a b x y t n)
  | 0x73 => some (.vshr a b x y t n)
  | 0x74 => some (.vsar a b x y t n)
  | 0x75 => if b = 15#4 then some (.vcvt a x y t n) else none
  | 0x76 => if b = 15#4 then some (.vsplit a x y t n) else none
  | 0x77 => if b = 15#4 then some (.vexp2 a x y t n) else none
  | 0x78 => if b = 15#4 then some (.vlog2 a x y t n) else none
  | 0x79 => if b = 15#4 then some (.vrcp a x y t n) else none
  | 0x7a => if b = 15#4 then some (.vrsq a x y t n) else none
  | 0x7b => if b = 15#4 then some (.vsqrt a x y t n) else none
  | 0x7c => if b = 15#4 then some (.vsinpi a x y t n) else none
  | 0x7d => if b = 15#4 then some (.vcospi a x y t n) else none
  | 0x7e => if b = 15#4 then some (.vtanh a x y t n) else none
  | 0x7f => if b = 15#4 then some (.vrsum a x y t n) else none
  | 0x80 => if b = 15#4 then some (.vrmax a x y t n) else none
  | 0x81 => if b = 15#4 then some (.vscan a x y t n) else none
  | 0x82 => if b = 15#4 then some (.vtrans a x y t n) else none
  | 0x83 => if b = 15#4 then some (.vbcast a x y t n) else none
  | 0x84 => some (.vperm a b x y t n)
  | 0x85 => some (.vclamp a b x y t n)
  | 0x86 => some (.vextr a b x y t n)
  | 0x87 => some (.vins a b x y t n)
  | 0x88 => if b = 15#4 then some (.vzero a x y t n) else none
  | 0xa0 => some (.mma a b x y t n)
  | 0xa1 => some (.mmas a b x y t n)
  | 0xa2 => some (.mmaw a b x y t n)
  | 0xa3 => if b = 15#4 then some (.accz a x y t n) else none
  | 0xa4 => if b = 15#4 then some (.accrd a x y t n) else none
  | 0xa5 => if b = 15#4 then some (.accld a x y t n) else none
  | 0xa6 => some (.accadd a b x y t n)
  | _ => none

/-- R103 to R107: an element word, by its fields. -/
def readElem (w : BitVec 32) : Option Instr :=
  elemOf (fld w 24 8).toNat (fld w 20 4) (fld w 16 4) (fld w 12 4) (fld w 8 4) (fld w 4 4) (fld w 0 4)

/-- R103 to R107, R116: an element word that may stand in a slot; none where the word itself is one that GLOAD rejects. -/
def decodeElem (w : BitVec 32) : Option Instr := (readElem w).filter Instr.wf

/-- A word in which an operator of that opcode stands with those fields. -/
def encodeElem (f : ElemFields) : BitVec 32 :=
  BitVec.ofNat 32 (f.opc * 2 ^ 24 + f.a.toNat * 2 ^ 20 + f.b.toNat * 2 ^ 16 + f.x.toNat * 2 ^ 12 + f.y.toNat * 2 ^ 8
    + f.t.toNat * 2 ^ 4 + f.n.toNat)

/-- A sequencer word of five fields: op in [31:26], then three of 5 bits, and the low 11 bits (formats A, F and, with the fields joined, I
and B of R29). -/
def seqWord (op d a b low : Nat) : BitVec 32 :=
  BitVec.ofNat 32 (op * 2 ^ 26 + d * 2 ^ 21 + a * 2 ^ 16 + b * 2 ^ 11 + low)

/-- A sequencer word of format I or B (R29): two register fields and 16 bits. -/
def seqWordI (op d a imm : Nat) : BitVec 32 := BitVec.ofNat 32 (op * 2 ^ 26 + d * 2 ^ 21 + a * 2 ^ 16 + imm)

/-- The word of a sequencer instruction; none for any other. -/
def encodeSeq : Instr → Option (BitVec 32)
  | .add d a b => some (seqWord 0x00 (d.toNat) (a.toNat) (b.toNat) 0x0)
  | .sub d a b => some (seqWord 0x00 (d.toNat) (a.toNat) (b.toNat) 0x1)
  | .and d a b => some (seqWord 0x00 (d.toNat) (a.toNat) (b.toNat) 0x2)
  | .or d a b => some (seqWord 0x00 (d.toNat) (a.toNat) (b.toNat) 0x3)
  | .xor d a b => some (seqWord 0x00 (d.toNat) (a.toNat) (b.toNat) 0x4)
  | .andn d a b => some (seqWord 0x00 (d.toNat) (a.toNat) (b.toNat) 0x5)
  | .shl d a b => some (seqWord 0x00 (d.toNat) (a.toNat) (b.toNat) 0x6)
  | .shr d a b => some (seqWord 0x00 (d.toNat) (a.toNat) (b.toNat) 0x7)
  | .sar d a b => some (seqWord 0x00 (d.toNat) (a.toNat) (b.toNat) 0x8)
  | .rot d a b => some (seqWord 0x00 (d.toNat) (a.toNat) (b.toNat) 0x9)
  | .mul d a b => some (seqWord 0x01 (d.toNat) (a.toNat) (b.toNat) 0x0)
  | .mulh d a b => some (seqWord 0x01 (d.toNat) (a.toNat) (b.toNat) 0x1)
  | .mulhu d a b => some (seqWord 0x01 (d.toNat) (a.toNat) (b.toNat) 0x2)
  | .div d a b => some (seqWord 0x01 (d.toNat) (a.toNat) (b.toNat) 0x3)
  | .divu d a b => some (seqWord 0x01 (d.toNat) (a.toNat) (b.toNat) 0x4)
  | .rem d a b => some (seqWord 0x01 (d.toNat) (a.toNat) (b.toNat) 0x5)
  | .remu d a b => some (seqWord 0x01 (d.toNat) (a.toNat) (b.toNat) 0x6)
  | .slt d a b => some (seqWord 0x02 (d.toNat) (a.toNat) (b.toNat) 0x0)
  | .sltu d a b => some (seqWord 0x02 (d.toNat) (a.toNat) (b.toNat) 0x1)
  | .seq d a b => some (seqWord 0x02 (d.toNat) (a.toNat) (b.toNat) 0x2)
  | .min d a b => some (seqWord 0x02 (d.toNat) (a.toNat) (b.toNat) 0x3)
  | .max d a b => some (seqWord 0x02 (d.toNat) (a.toNat) (b.toNat) 0x4)
  | .minu d a b => some (seqWord 0x02 (d.toNat) (a.toNat) (b.toNat) 0x5)
  | .maxu d a b => some (seqWord 0x02 (d.toNat) (a.toNat) (b.toNat) 0x6)
  | .clz d a => some (seqWord 0x03 (d.toNat) (a.toNat) (0) 0x0)
  | .ctz d a => some (seqWord 0x03 (d.toNat) (a.toNat) (0) 0x1)
  | .popc d a => some (seqWord 0x03 (d.toNat) (a.toNat) (0) 0x2)
  | .addi d a imm => some (seqWordI 0x04 (d.toNat) (a.toNat) (imm.toNat))
  | .andi d a imm => some (seqWordI 0x05 (d.toNat) (a.toNat) (imm.toNat))
  | .ori d a imm => some (seqWordI 0x06 (d.toNat) (a.toNat) (imm.toNat))
  | .xori d a imm => some (seqWordI 0x07 (d.toNat) (a.toNat) (imm.toNat))
  | .shli d a n => some (seqWordI 0x08 (d.toNat) (a.toNat) (n.toNat))
  | .shri d a n => some (seqWordI 0x09 (d.toNat) (a.toNat) (n.toNat))
  | .sari d a n => some (seqWordI 0x0a (d.toNat) (a.toNat) (n.toNat))
  | .slti d a imm => some (seqWordI 0x0b (d.toNat) (a.toNat) (imm.toNat))
  | .sltiu d a imm => some (seqWordI 0x0c (d.toNat) (a.toNat) (imm.toNat))
  | .ldhi d a imm => some (seqWordI 0x0d (d.toNat) (a.toNat) (imm.toNat))
  | .bfx d a o w => some (seqWordI 0x0e (d.toNat) (a.toNat) (o.toNat * 2 ^ 8 + w.toNat))
  | .bfxs d a o w => some (seqWordI 0x0f (d.toNat) (a.toNat) (o.toNat * 2 ^ 8 + w.toNat))
  | .bfi d a o w => some (seqWordI 0x10 (d.toNat) (a.toNat) (o.toNat * 2 ^ 8 + w.toNat))
  | .lb d a imm => some (seqWordI 0x11 (d.toNat) (a.toNat) (imm.toNat))
  | .lbu d a imm => some (seqWordI 0x12 (d.toNat) (a.toNat) (imm.toNat))
  | .lh d a imm => some (seqWordI 0x13 (d.toNat) (a.toNat) (imm.toNat))
  | .lhu d a imm => some (seqWordI 0x14 (d.toNat) (a.toNat) (imm.toNat))
  | .lw d a imm => some (seqWordI 0x15 (d.toNat) (a.toNat) (imm.toNat))
  | .lwu d a imm => some (seqWordI 0x16 (d.toNat) (a.toNat) (imm.toNat))
  | .ld d a imm => some (seqWordI 0x17 (d.toNat) (a.toNat) (imm.toNat))
  | .sb r a imm => some (seqWordI 0x18 (r.toNat) (a.toNat) (imm.toNat))
  | .sh r a imm => some (seqWordI 0x19 (r.toNat) (a.toNat) (imm.toNat))
  | .sw r a imm => some (seqWordI 0x1a (r.toNat) (a.toNat) (imm.toNat))
  | .sd r a imm => some (seqWordI 0x1b (r.toNat) (a.toNat) (imm.toNat))
  | .beq a b o => some (seqWordI 0x1c (a.toNat) (b.toNat) (o.toNat))
  | .bne a b o => some (seqWordI 0x1d (a.toNat) (b.toNat) (o.toNat))
  | .blt a b o => some (seqWordI 0x1e (a.toNat) (b.toNat) (o.toNat))
  | .bge a b o => some (seqWordI 0x1f (a.toNat) (b.toNat) (o.toNat))
  | .bltu a b o => some (seqWordI 0x20 (a.toNat) (b.toNat) (o.toNat))
  | .bgeu a b o => some (seqWordI 0x21 (a.toNat) (b.toNat) (o.toNat))
  | .j o => some (BitVec.ofNat 32 (0x22 * 2 ^ 26 + o.toNat))
  | .jal o => some (BitVec.ofNat 32 (0x23 * 2 ^ 26 + o.toNat))
  | .jalr d a imm => some (seqWordI 0x24 (d.toNat) (a.toNat) (imm.toNat))
  | .crrd d n => some (seqWordI 0x25 (d.toNat) (0) (0 * 2 ^ 12 + n.toNat))
  | .crwr a n => some (seqWordI 0x25 (0) (a.toNat) (1 * 2 ^ 12 + n.toNat))
  | .crset d a n => some (seqWordI 0x25 (d.toNat) (a.toNat) (2 * 2 ^ 12 + n.toNat))
  | .crclr d a n => some (seqWordI 0x25 (d.toNat) (a.toNat) (3 * 2 ^ 12 + n.toNat))
  | .amoswap d a b => some (seqWord 0x26 (d.toNat) (a.toNat) (b.toNat) (0 * 2 ^ 6 + 0x0))
  | .amocas d a b c => some (seqWord 0x26 (d.toNat) (a.toNat) (b.toNat) (c.toNat * 2 ^ 6 + 0x1))
  | .amoadd d a b => some (seqWord 0x26 (d.toNat) (a.toNat) (b.toNat) (0 * 2 ^ 6 + 0x2))
  | .amoand d a b => some (seqWord 0x26 (d.toNat) (a.toNat) (b.toNat) (0 * 2 ^ 6 + 0x3))
  | .amoor d a b => some (seqWord 0x26 (d.toNat) (a.toNat) (b.toNat) (0 * 2 ^ 6 + 0x4))
  | .amoxor d a b => some (seqWord 0x26 (d.toNat) (a.toNat) (b.toNat) (0 * 2 ^ 6 + 0x5))
  | .amomin d a b => some (seqWord 0x26 (d.toNat) (a.toNat) (b.toNat) (0 * 2 ^ 6 + 0x6))
  | .amomax d a b => some (seqWord 0x26 (d.toNat) (a.toNat) (b.toNat) (0 * 2 ^ 6 + 0x7))
  | .nop => some (seqWord 0x27 (0) (0) (0) 0x0)
  | .fence => some (seqWord 0x27 (0) (0) (0) 0x1)
  | .tret => some (seqWord 0x27 (0) (0) (0) 0x2)
  | .wfe => some (seqWord 0x27 (0) (0) (0) 0x3)
  | .sev a => some (seqWord 0x27 (0) (a.toNat) (0) 0x4)
  | .halt => some (seqWord 0x27 (0) (0) (0) 0x5)
  | .syscall imm => some (seqWordI 0x28 (0) (0) (imm.toNat))
  | .brk imm => some (seqWordI 0x29 (0) (0) (imm.toNat))
  | .gload d a b => some (seqWord 0x30 (d.toNat) (a.toNat) (b.toNat) (0 * 2 ^ 6 + 0x0))
  | .gevict d a => some (seqWord 0x30 (d.toNat) (a.toNat) (0) (0 * 2 ^ 6 + 0x1))
  | .falloc d a b c => some (seqWord 0x30 (d.toNat) (a.toNat) (b.toNat) (c.toNat * 2 ^ 6 + 0x2))
  | .ffree d a => some (seqWord 0x30 (d.toNat) (a.toNat) (0) (0 * 2 ^ 6 + 0x3))
  | .fkill d a => some (seqWord 0x30 (d.toNat) (a.toNat) (0) (0 * 2 ^ 6 + 0x4))
  | .tinj d a b c => some (seqWord 0x30 (d.toNat) (a.toNat) (b.toNat) (c.toNat * 2 ^ 6 + 0x5))
  | .census d a b => some (seqWord 0x30 (d.toNat) (a.toNat) (b.toNat) (0 * 2 ^ 6 + 0x6))
  | .tlbiPage a b => some (seqWord 0x31 (0) (a.toNat) (b.toNat) (0 * 2 ^ 6 + 0x0))
  | .tlbiAsid b => some (seqWord 0x31 (0) (0) (b.toNat) (0 * 2 ^ 6 + 0x1))
  | .tlbiAll => some (seqWord 0x31 (0) (0) (0) (0 * 2 ^ 6 + 0x2))
  | .cprio d a b => some (seqWord 0x32 (d.toNat) (a.toNat) (b.toNat) (0 * 2 ^ 6 + 0x0))
  | .csave d a b c => some (seqWord 0x32 (d.toNat) (a.toNat) (b.toNat) (c.toNat * 2 ^ 6 + 0x1))
  | .crstr d a b c => some (seqWord 0x32 (d.toNat) (a.toNat) (b.toNat) (c.toNat * 2 ^ 6 + 0x2))
  | .fres d a b c => some (seqWord 0x32 (d.toNat) (a.toNat) (b.toNat) (c.toNat * 2 ^ 6 + 0x3))
  | .fdisc d a => some (seqWord 0x32 (d.toNat) (a.toNat) (0) (0 * 2 ^ 6 + 0x4))
  | .fretry d a => some (seqWord 0x32 (d.toNat) (a.toNat) (0) (0 * 2 ^ 6 + 0x5))
  | .wmark d a b => some (seqWord 0x33 (d.toNat) (a.toNat) (b.toNat) (0 * 2 ^ 6 + 0x0))
  | .wretire d a b => some (seqWord 0x33 (d.toNat) (a.toNat) (b.toNat) (0 * 2 ^ 6 + 0x1))
  | .rwin d a b => some (seqWord 0x33 (d.toNat) (a.toNat) (b.toNat) (0 * 2 ^ 6 + 0x2))
  | .rstep d a b => some (seqWord 0x33 (d.toNat) (a.toNat) (b.toNat) (0 * 2 ^ 6 + 0x3))
  | .fstep d a b => some (seqWord 0x33 (d.toNat) (a.toNat) (b.toNat) (0 * 2 ^ 6 + 0x4))
  | .wcfg d a b c => some (seqWord 0x33 (d.toNat) (a.toNat) (b.toNat) (c.toNat * 2 ^ 6 + 0x5))
  | .snap d a => some (seqWord 0x34 (d.toNat) (a.toNat) (0) (0 * 2 ^ 6 + 0x0))
  | _ => none

/-- The word of an instruction that has one. -/
def encode (i : Instr) : Option (BitVec 32) :=
  match i.elemFields with
  | some f => some (encodeElem f)
  | none => encodeSeq i

/-- Whether a word of the opcode table, which does not say where the word stands, is taken as an element word: it names an operator, and it is
well formed, or its fields are all zero or hold the pattern of an absent port, or the sequencer has no such word. (DESIGN CHOICE, safe: log 4.) -/
def tableElem (v : BitVec 32) : Bool :=
  (readElem v).isSome &&
    ((decodeElem v).isSome || (List.range 6).all (fun j => let f := fld v (4 * j) 4; f == 0 || f == 15) || (decodeSeq v).isNone)

/-- The instruction of a word of the opcode table: as an element word or as a sequencer word. -/
def decodeTableWord (nbits w : Nat) : Option Instr :=
  let v := BitVec.ofNat 32 w
  if nbits = 32 then (if tableElem v then readElem v else decodeSeq v) else none

end Sys2Proof
end

