-- ==== Sys2Proof/Machine/State.lean ====
section
/-! DEFINITION. The state of the machine as plain data: every piece of state the spec names, one structure for each block.
Tables that the package holds by number (sequencers by cluster, elements, placements, queues ...) are association lists in
rising key order; an absent key stands for the block's reset value. -/

namespace Sys2Proof.Machine

/-- Bytes by address in canonical form: addresses strictly rising and no listed byte zero. An unlisted byte reads as zero. -/
abbrev Memory := List Host.Cell

/-- A table of things by number, keys strictly rising. -/
abbrev Tab (α : Type) := List (Nat × α)

/-- R13: the run state of a sequencer. -/
inductive RunState where
  | held
  | running
  | waiting
  | halted
  deriving DecidableEq, Repr

/-- What a sequencer instruction of class P that has been issued still waits for (R95). (DEDUCED, safe: log 11.) -/
inductive SeqWait where
  /-- FKILL (R100) or RWIN (R364): the GEN bump of a frame; `d` receives the status word. -/
  | bump (d plid frame : Nat)
  /-- GLOAD (R86): the image stands read and checked, `tries` attempts have failed, and `since` counts the releases seen; `wait` is its WAIT bit
  and `issued` the cycle of its issue. -/
  | place (d : Nat) (image : List Byte) (oneDie wait : Bool) (tries since : Nat) (issued : Word)
  /-- CPRIO (R338): every live context of the placement still has to land the new PRIO. -/
  | prio (d plid : Nat)
  /-- TLBI (R254): the invalidation of that number. -/
  | inval (k : Nat)
  /-- FSTEP (R371): PAUSE or RESUME landing (`step` = false), or STEP of `n` firings at virtual element `ve`, where `base` firings had consumed a budget before. -/
  | fstep (d plid frame : Nat) (step : Bool) (ve n base : Nat)
  /-- The instruction is issued again once what it waits for has gone (R88, R341, R442). -/
  | again
  /-- A translated access to another package (R398): the request's number, the register that receives its data, the size and
  the sign extension of a load, whether it is an atomic, and its address. -/
  | remote (rid d size : Nat) (sx atomic : Bool) (va : Word)
  /-- GLOAD or TINJ (R253) reads bytes of other packages: those read so far by address, and the line being read, from `va`; with its answer
  the instruction is issued again; `issued` is the cycle of its first issue (R86). -/
  | gather (got : List (Nat × List Byte)) (va : Nat) (cur : List Byte) (issued : Word)
  /-- GLOAD or CRSTR (R349): the contexts of a placement are being written; its status word. -/
  | filling (d plid : Nat) (st : Word)
  /-- SNAP (R446): the blocks have still to latch, in the latch whose SEQ is `seq`. -/
  | snap (seq : BitVec 32)
  deriving DecidableEq, Repr

/-- A leaf held by a translation entry (R220, R225, R226). -/
structure Leaf where
  asid : Nat
  level : Nat
  vpage : Nat
  pte : Word
  deriving DecidableEq, Repr

/-- One sequencer with its local memory and its control registers (R13 to R22, R214, R325). -/
structure Seq where
  run : RunState
  pc : Word
  pcv : Word
  g : Vector Word 32
  status : Word
  tvec : Word
  tpc : Word
  tcause : Word
  tval : Word
  kscratch : Word
  twin : Word
  cycle : Word
  tcmp : Word
  ptbase : Word
  asid : Word
  fqhead : Word
  fqtail : Word
  mbox : Vector Word 4
  evb : Vector Word 4
  evm : Vector Word 4
  cmnscr : Word
  fqbase : Word
  fqseq : Word
  wait : Option SeqWait
  /-- R35: the register that the instruction before loaded (g0: none) -/
  loaded : BitVec 5
  /-- R13: a stop that lands at the next instruction boundary -/
  stopReq : Bool
  tlb : Option Leaf
  mem : Memory
  memErr : List Nat
  deriving DecidableEq, Repr

/-- R53: the kinds of token. -/
inductive Kind where
  | data
  | tile
  | fin
  | mark
  | kill
  | commit
  | bound
  | poison
  deriving DecidableEq, Repr

/-- What a CPY, CPYW or GQP command keeps of the firing that sent it (R356, R359): its window, ELEM, CS, ITER and SPEC. -/
structure Source where
  win : Nat
  elem : Nat
  cs : Nat
  iter : Nat
  spec : Nat
  deriving DecidableEq, Repr

/-- A token (R52). CTX is written by the route and stands where the token stands; a tile token carries its bytes.
`slotRef`: the sender's tile slot that stays occupied until the token is accepted (R144). `cust`: the frame and generation that
count an FNEW or FRET result until it is accepted (R144). `cmd`: for a CPY, CPYW or GQP command, its firing (R359). -/
structure Tok where
  gen : BitVec 2
  frame : BitVec 10
  iter : BitVec 16
  spec : BitVec 3
  kind : Kind
  level : BitVec 3
  port : BitVec 4
  btag : BitVec 21
  payload : Word
  tile : Option (List Byte)
  slotRef : Option Nat
  cust : Option (Nat × Nat)
  cmd : Option Source
  deriving DecidableEq, Repr

/-- What an entry of a matching store is doing. -/
inductive EntSt where
  /-- it waits for a match -/
  | idle
  /-- it is an operand of the firing in progress of that slot -/
  | firing (k : Nat)
  /-- it is the start token that the counter of that slot holds (R157) -/
  | start (k : Nat)
  /-- it is operand A (false) or B (true) of a faulted firing, by the fault's number (R147, R327) -/
  | fault (id : Nat) (isB : Bool)
  deriving DecidableEq, Repr

/-- An entry of a matching store (R58). `net`: it came on the scale network. `ord`: arrival order. -/
structure MsEntry where
  tok : Tok
  slot : Option Nat
  net : Bool
  ord : Nat
  st : EntSt
  deriving DecidableEq, Repr

/-- R349: the state of a context slot. -/
inductive CtxSt where
  | free
  | filling
  | live
  | draining
  deriving DecidableEq, Repr

/-- Where a translated byte lies (R212, R219). -/
inductive Loc where
  | hbm (a : Nat)
  | commons (c byte : Nat)
  | ring (c byte : Nat)
  | pool (plid vp el byte : Nat)
  | peer (p a : Nat)
  | host (a : Nat)
  | guest (a : Nat)
  | devreg (off : Nat)
  deriving DecidableEq, Repr

/-- One translated line of an access: `n` bytes from `va`, at `loc`, under `key`, with the leaf's logging bits (R218) and level. -/
structure Line where
  va : Nat
  n : Nat
  loc : Loc
  key : Nat
  irrev : Bool
  nolog : Bool
  lvl : Nat
  deriving DecidableEq, Repr

/-- The stage that a memory-port entry has reached (R235 to R239). -/
inductive PortSt where
  | created
  | walking
  | translated
  | sent
  | performed
  /-- its result is an answer that a later event brings (a remote peer, a remote event cluster, the host or the guest) -/
  | away
  deriving DecidableEq, Repr

/-- An operand of a firing as it stood: the token, its tile slot and its place in the arrival order. `fromMs` is false for a
LIT, STATE or ZERO source. -/
structure Operand where
  tok : Tok
  slot : Option Nat
  ord : Nat
  fromMs : Bool
  deriving DecidableEq, Repr

/-- An entry of the partition table or of the group table (R395, R413): word 0 and the eight MASK words. -/
structure Masked where
  w0 : Word
  mask : Vector Word 8
  deriving DecidableEq, Repr

/-- An entry of an element's memory port (R235). `hidden` numbers the earlier entries that a load cannot see (R238). `mask` holds the bytes of the
standing slot that masks an STT, as they stood when its firing started (R245, R255). Once the entry has been sent, `todo` lists the events of
its access that have still to perform, by number (R256), `taken` the lines of whose write the home has judged, with true for a refused one (R358, R450),
and `fwd` the bytes that a load takes from held stores, by their place in its data (R238). `data` holds the bytes an
access has read; `out0` and `out1` the payloads of its results; `poison` says which of its results are POISON (R242): 0 none, 1 the data result, 2
all. `acks` are the multicast statuses of R415 by peer. -/
structure MemEntry where
  id : Nat
  x : Nat
  k : Nat
  wrd : BitVec 32
  attr : Word
  plid : Nat
  tag : Tok
  opA : Operand
  opB : Operand
  va : Nat
  lines : List Line
  st : PortSt
  hidden : List Nat
  dead : Bool
  res : Option Nat
  mask : List Byte
  todo : List Nat
  taken : Tab Bool
  fwd : List (Nat × Byte)
  data : List Byte
  out0 : Word
  out1 : Word
  poison : Nat
  win : Nat
  acks : List (Nat × Nat)
  /-- R415: the group entry of an MCST, from its translation on -/
  grp : Option Masked := none
  deriving DecidableEq, Repr

/-- A result of a firing bound for destination `dest` (a route 0 to 13). -/
structure Emit where
  dest : Nat
  tok : Tok
  deriving DecidableEq, Repr

/-- An effect of a firing that lands when it completes. -/
inductive Post where
  /-- bytes of the context's own pool (an accumulator, a tile slot, a weight-buffer granule) -/
  | pool (off : Nat) (bytes : List Byte)
  /-- an event operation of R168: 0 set, 1 clear, 2 toggle -/
  | event (op bit : Nat)
  /-- a new memory-port entry -/
  | entry (m : MemEntry)
  deriving DecidableEq, Repr

/-- What a firing will do when it completes: fault (R147), or emit results, write its slot-state word and land its effects. -/
inductive FireOut where
  | fault (code : Nat) (val : Word)
  | emit (rs : List Emit) (sw : Option Word) (posts : List Post)
  deriving DecidableEq, Repr

/-- A firing in progress (R149). `cancel`: a KILL has annihilated its results (R163). `spare`: the tile slots of its TILE results that go nowhere (R180). -/
structure Firing where
  k : Nat
  opc : Nat
  ends : Nat
  opA : Operand
  opB : Operand
  used : List Nat
  out : FireOut
  tag : Tok
  cancel : Bool
  win : Nat
  spare : List Nat
  deriving DecidableEq, Repr

/-- The staging of a cut in one context (R361 to R363): the frame, the window that the marker opens, the channels on which the marker has arrived, the
routes that it has not yet entered, and the checkpoint. `done`: the marker has arrived on every channel. -/
structure Staging where
  frame : Nat
  w : Nat
  done : Bool
  marks : List Nat
  fwd : List Nat
  sw : List Word
  accs : List Byte
  entries : List (MsEntry × Nat)
  deriving DecidableEq, Repr

/-- A token spilled from a context (R72). `cl` is the cluster whose custody counts it; `hbm` says it lies in the HBM region. `chan` is the channel on which it
came (R66, R361). (DEDUCED, unsafe: log 17.) -/
structure Spilled where
  plid : Nat
  vp : Nat
  el : Nat
  cl : Nat
  hbm : Bool
  net : Bool
  chan : Nat
  tok : Tok
  deriving DecidableEq, Repr

/-- One context slot of an element (R55, R58, R81, R82, R110 to R112, R179). `pool` holds the bytes of its granules,
numbered from the context's own granule 0. -/
structure Ctx where
  st : CtxSt
  plid : Nat
  vp : Nat
  el : Nat
  words : Vector (BitVec 32) 16
  attr : Vector Word 16
  sw : Vector Word 16
  routes : Vector Word 14
  ccw : Word
  part : Word
  standing : Nat
  pool : Memory
  poolErr : List Nat
  ms : List MsEntry
  fifo : Vector (List Tok) 14
  inflight : List Firing
  spillcnt : Word
  throtcnt : BitVec 32
  throttled : Bool
  newPrio : Option Nat
  evcl : Nat
  wins : Tab Nat
  budget : Tab Nat
  /-- R371: for each frame, the firings that have consumed a step budget here -/
  stepped : Tab Nat
  paused : List Nat
  pauseReq : List (Nat × Bool)
  stagings : List Staging
  /-- markers injected here that wait for the staging: frame, window, channel -/
  marksIn : List (Nat × Nat × Nat)
  /-- R364 step 4: restored tokens that have found neither the store nor spill room; true for the scale network -/
  waitIn : List (Bool × Tok)
  spillKills : List Tok
  /-- R63: for each matched slot, Order, Wait and the arrival numbers of the operand set for which they count -/
  order : Tab (Int × Nat × List Nat)
  deriving DecidableEq, Repr

/-- One element (R55, R63, R65, R225, R235): its context slots, arbiter, address-generator streams, memory port and units. `busy`: for each unit, the spans of
cycles, from the first to before the second, in which firings hold it (R149, R186). `beats`: for each route to
the element itself, by 14 times the slot plus its number, the cycle from which it can carry its next token. -/
structure Elem where
  ctx : Vector Ctx 4
  rr : Nat
  cyc : Nat
  /-- the cycle of the arbiter's last choice -/
  lastArb : Nat
  busy : Vector (List (Nat × Nat)) 8
  beats : Tab Nat
  streams : Vector (Option Leaf) 8
  port : List MemEntry
  nextId : Nat
  nextOrd : Nat
  deriving DecidableEq, Repr

/-- A fault record (R324), its fields as the spec names them. -/
structure Record where
  hdra : Word
  hdrb : Word
  paya : Word
  payb : Word
  fval : Word
  elem : Nat
  cs : Nat
  opc : Nat
  code : Nat
  kind : Nat
  win : Nat
  frm : Nat
  aux : Nat
  /-- the fault that a FIRING record makes pending: its number -/
  fault : Option Nat
  deriving DecidableEq, Repr

/-- A faulted firing that a handler may settle (R327 to R329). `fseq` is known once its record is written. `settle` holds what FRES or
FDISC decided until it takes effect. -/
structure Pending where
  id : Nat
  fseq : Option Word
  vp : Nat
  el : Nat
  k : Nat
  plid : Nat
  frame : Nat
  gen : Nat
  tag : Tok
  bval : Word
  settle : Option (List Emit × Option Word)
  deriving DecidableEq, Repr

/-- A copy command accepted by a copy engine (R287, R290). `sender` is the virtual plot and element that sent it. `queue` is the queue and index of the COPY packet that gave it.
`pos` counts the bytes already copied, `done` lists the pieces that they were, and `read` holds the bytes of pieces that have been read and not written; `code` and `fva` are
the fault that stopped it; `got` and `getting` hold lines of other packages that it reads for piece `reading`;
`signaled`: its signal update has been sent. `iter0` and `spec0` are the ITER and SPEC of the firing that sent it (R356). -/
structure CeCmd where
  id : Nat
  pos : Nat
  done : List Nat := []
  read : Tab (List Byte) := []
  reading : Nat := 0
  iter0 : Nat
  spec0 : Nat
  spec : Nat
  code : Nat
  fva : Nat
  words : List Word
  sender : Option (Nat × Nat)
  plid : Nat
  root : Option (Word × Nat)
  signal : Bool
  tag : Tok
  win : Nat
  elemField : Nat
  cs : Nat
  queue : Option (Nat × Nat)
  got : List (Nat × List Byte)
  getting : Option (Nat × List Byte)
  signaled : Bool
  deriving DecidableEq, Repr

/-- The cluster's own blocks beside its sequencer: commons, fault directory, crier, copy engine, TLB (R57, R68, R73, R215, R226,
R326, R327, R335). `evAt` is the event bits as they stood at the start of the element cycle `evCyc - 1` of the cluster, the last that has begun (R169). -/
structure Cluster where
  com : Memory
  comErr : List Nat
  copies : List Nat
  tlb : List Leaf
  recq : List Record
  dir : List Pending
  stalecnt : Word
  straycnt : Word
  poisoncnt : Word
  lastStray : Option Word
  act : List (Nat × Nat × Nat)
  marked : List (Nat × Nat × Nat)
  evAt : Vector Word 4
  evCyc : Nat
  ce : List CeCmd
  deriving DecidableEq, Repr

/-- R91, R375: the state of a frame. -/
inductive FrameSt where
  | free
  | opened
  | running
  | deadlocked
  | complete
  | killing
  | rolling
  deriving DecidableEq, Repr

/-- R367, R372: the state of a window; a retired window keeps whether its cut is complete, which is what RWIN asks of the window at FLOOR. -/
inductive WinSt where
  | opened
  | cutting
  | complete
  | undone
  | retired (cut : Bool)
  deriving DecidableEq, Repr

/-- Who holds an append that finds no room (R366): 0 entry `num` of element `loc`, 1 command `num` of cluster `loc`, 2 the checkpoint of context `num` of
element `loc`, 3 the guest packet on route `num` of element `loc` (16 times the context slot plus the route), 4 the guest's write under return tag `num`;
the address of the held write; and the line that it holds at its home (R358). -/
structure Holder where
  kind : Nat
  loc : Nat
  num : Nat
  va : Nat
  line : Option Loc := none
  deriving DecidableEq, Repr

/-- The recorder's state for one frame (R351 to R367): mode, ring, byte indices, FLOOR, how many windows WRETIRE r has put beyond undoing (R367), highest window,
window states, the lines already logged by window (R359), the cut in progress and its completion event. -/
structure Log where
  mode : Nat
  base : Nat
  lg : Nat
  head : Nat
  tail : Nat
  floor : Nat
  below : Nat
  win : Nat
  states : Tab WinSt
  seen : List (Loc × Nat)
  cut : Option Nat
  cutEvent : Option (Nat × Nat)
  pooled : Bool
  /-- R366: the appends that are held -/
  waiting : List Holder
  /-- R371: the writes that were held when the log was discarded: they perform without entries -/
  exempt : List Holder
  /-- the virtual elements (4 vp + el) whose checkpoint of the cut in progress has been appended -/
  drained : List Nat
  /-- for each WINDOW_OPEN entry, by its byte index: which of its tokens came on the scale network -/
  nets : Tab (List Bool)
  /-- for each entry, by its byte index: the bytes of its footprint's span that its write leaves alone (R365) -/
  gaps : Tab (List Nat)
  deriving DecidableEq, Repr

/-- A report of a cluster in a census round (R69): the cluster, its custody count, its activity bit and its QUIET flag. -/
structure Report where
  cl : Nat
  count : Nat
  active : Bool
  quiet : Bool
  deriving DecidableEq, Repr

/-- The GEN bump under way (R57, R364): a kill, or a rollback to a cut, whose tables have been updated or not. -/
inductive Bump where
  | kill
  | rollback (k : Nat) (bumped : Bool)
  deriving DecidableEq, Repr

/-- One frame of a placement (R89 to R91, R98, R368). `gen` is its GEN; `old` lists the clusters whose crier's table still gives the one before, during a bump
(R57). `round` holds the reports of the census round in progress and `asked` the clusters that have still to report (R69). -/
structure Frame where
  st : FrameSt
  gen : BitVec 2
  home : Nat
  even : Bool
  evb : Nat
  csp : Nat
  region : Nat
  regionSize : Nat
  pages : Tab Nat
  hold : Bool
  ringHolds : Nat
  lastSum : Nat
  old : List Nat
  round : Option (List Report)
  asked : List Nat
  announced : Bool
  /-- R68, R76: the criers' entries for the frame, by 4 times the cluster plus the GEN: the quiet counter of each -/
  quiet : Tab Nat
  bump : Option Bump
  log : Log
  paused : Bool
  /-- R332: the tokens that find no spill room: element, context slot, channel and token -/
  episodes : List (Nat × Nat × Nat × Tok)
  launch : Option (Nat × Nat)
  deriving DecidableEq, Repr

/-- A token of a saved image: its frame and generation, the frame and generation that count it where they are others (R144), whether a GEN bump has
marked it dropped (R347), whether it came on the scale network, and the window, ELEM and CS of a command. -/
structure SavedTok where
  frame : Nat
  gen : Nat
  cust : Option (Nat × Nat)
  dropped : Bool
  net : Bool
  cmd : Option Source
  deriving DecidableEq, Repr

/-- What the package keeps of a saved context beside its image: its event cluster (R170), whether its routes are held back (R71), its windows (R359), step
budgets and pauses (R368), the staging of a cut (R361), and its QEXP (R76). -/
structure SavedCtx where
  evcl : Nat
  qexp : Nat
  throttled : Bool
  wins : Tab Nat
  budget : Tab Nat
  stepped : Tab Nat
  paused : List Nat
  pauseReq : List (Nat × Bool)
  stagings : List Staging
  marksIn : List (Nat × Nat × Nat)
  deriving DecidableEq, Repr

/-- R346: a token or marker accepted for a context that is saved or draining: its virtual element, its channel, and the cluster whose crier counts it. -/
structure StagedIn where
  vp : Nat
  el : Nat
  chan : Nat
  cl : Nat
  tok : Tok
  net : Bool := false
  deriving DecidableEq, Repr

/-- A virtual plot that CSAVE has put away (R341): where its image lies, the cluster whose crier counts it, and the tokens it holds in
image order. `evicted` gives the place in the order of the Reeve's evictions and the releases of plot-contexts seen by then (R348). `filling`: the plot-context in which it is being written, with the images read (R344, R349). -/
structure Saved where
  vp : Nat
  cl : Nat
  addr : Nat
  size : Nat
  toks : List SavedTok
  ctxs : List SavedCtx
  evicted : Option (Nat × Nat)
  prioAt : Nat
  filling : Option ((Nat × Nat) × List (List Byte))
  deriving DecidableEq, Repr

/-- A route of an image, between virtual elements numbered 4 vp + el (R78): its source, number, TGT, target element and port. -/
structure Edge where
  src : Nat
  r : Nat
  tgt : Nat
  dst : Nat
  port : Nat
  deriving DecidableEq, Repr

/-- A placed graph (R78, R79, R85, R223, R338). `parts` and `tsinit` hold the partition word and the number of standing tile slots of virtual element
4v + e (R82, R118); `map` gives the physical plot and slot index of each virtual plot. `stagedIn` holds what was accepted for saved and draining plots,
oldest first (R346). `moving` is the virtual plot that the PA is moving (R87); `saving` the virtual plots that a CSAVE drains, with the cluster that issued it (none: the Reeve). -/
structure Placement where
  n : Nat
  entries : List Word
  parts : List Word
  tsinit : List Nat
  edges : List Edge
  guestPlots : List Nat
  map : List (Option (Nat × Nat))
  saved : List Saved
  stagedIn : List StagedIn
  moving : Option Nat
  saving : List (Nat × Option Nat)
  root : Option (Word × Nat)
  prio : Option Nat
  oneDie : Bool
  frames : Tab Frame
  transient : Bool
  deriving DecidableEq, Repr

/-- R299: the state of a host queue. -/
inductive QState where
  | disabled
  | active
  | blocked
  | error
  deriving DecidableEq, Repr

/-- A packet that a queue has fetched: a number of its own, its index, the queue's root as it stood, and its 64 bytes. -/
structure Packet where
  id : Nat
  idx : Nat
  root : Word × Nat
  bytes : List Byte
  deriving DecidableEq, Repr

/-- What an issued packet that has not completed waits for (R302, R303, R314, R348, R355). -/
inductive GoWait where
  /-- GLOAD or LAUNCH: its image is being read -/
  | image
  /-- LAUNCH: its arguments are being read -/
  | args
  /-- LAUNCH: room; so many attempts have failed, and so many releases had been seen (none: the PA was busy) -/
  | place (tries : Nat) (since : Option Nat)
  /-- LAUNCH: the PA compacts for it -/
  | compact (tries : Nat)
  /-- LAUNCH: the Reeve evicts virtual plot `v` of placement `p`; the candidates that it has skipped -/
  | evict (tries p v : Nat) (skipped : List (Nat × Nat))
  /-- LAUNCH: a frame and its spill pages -/
  | alloc
  /-- LAUNCH: a log ring of the pool -/
  | ring
  /-- LAUNCH: argument `k` is to be injected -/
  | inject (k : Nat)
  /-- LAUNCH: its frame runs -/
  | launch
  | waitsig
  /-- COPY: a place in the copy engine -/
  | room
  /-- COPY: its command runs -/
  | copy
  /-- RINGBIND UNBIND: an ARRIVE stands at the edge port -/
  | unbind
  /-- the operation waits as an instruction of class P does -/
  | op (w : SeqWait)
  /-- the status word is to be stored; sent to another package or not -/
  | store (st : Word) (sent : Bool)
  /-- the signal update is to perform; sent to another package or not -/
  | signal (sent : Bool)
  /-- LAUNCH: its transient placement is to be evicted -/
  | leave
  deriving DecidableEq, Repr

/-- An issued packet that has not completed: what it waits for, the image or the arguments that it has read, the lines of other packages
that it reads, the Reeve's cycle of its issue, and the placement and frame that it launched. -/
structure Going where
  pkt : Packet
  wait : GoWait
  data : List Byte
  got : List (Nat × List Byte)
  getting : Option (Nat × List Byte)
  issued : Nat
  plid : Option Nat
  frame : Option Nat
  deriving DecidableEq, Repr

/-- One host queue (R296). The descriptor's fields as the spec names them; `cur` is the packet that waits for its issue; `going` the
packets that have been issued and have not completed, oldest first; `since` the Reeve's cycle from which its Wait counts (R308). -/
structure Queue where
  st : QState
  evec : Nat
  qprio : Nat
  opmask : Nat
  ptbase : Word
  asid : Nat
  ridx : Word
  widx : Word
  stalew : Word
  qbase : Word
  owner : Nat
  rights : Nat
  log2n : Nat
  ranges : Vector Word 8
  cap : Vector Word 4
  errec : Vector Word 8
  cur : Option Packet
  going : List Going
  since : Nat
  deriving DecidableEq, Repr

/-- A bound Ethernet ring (R309, R312, R314). `ctl` is the commons byte of its control block in cluster `cl`. -/
structure Ring where
  cl : Nat
  ctl : Nat
  lg : Nat
  policy : Nat
  key : Nat
  batch : Nat
  tmo : Nat
  iter : Nat
  entry : Nat
  frame : Nat
  plid : Nat
  count : Nat
  pendingArrive : List Nat
  unbinding : Option (Nat × Nat)
  deriving DecidableEq, Repr

/-- R403: the state of a Krydeoft link. -/
inductive LinkSt where
  | down
  | training
  | up
  | fencing
  | fenced
  deriving DecidableEq, Repr

/-- One Krydeoft port (R402): its status register and the packets it holds for sending. -/
structure KPort where
  st : LinkSt
  ena : Bool
  lanes : Nat
  capf : Nat
  retrn : BitVec 32
  /-- R400: the credit held for each virtual channel, and the shared credit, in flits -/
  credits : Vector Nat 4
  shared : Nat
  held : List KPacket
  deriving DecidableEq, Repr

/-- An entry of the key table (R395) with its secret material (R407). -/
structure Key where
  v : Bool
  pidx : Nat
  serial : Nat
  secret : List Byte
  /-- the place of the secret among the secrets installed so far, from 1: it names the ciphertext and tags that the key makes (R406, R407) -/
  sid : Nat
  revoking : Bool
  deriving DecidableEq, Repr

/-- R435: the state of the guest port. -/
inductive GuestSt where
  | down
  | training
  | active
  | fenced
  deriving DecidableEq, Repr

/-- R420: the command state of a guest context. -/
inductive GuestCst where
  | run
  | pausing
  | paused
  | saving
  | restoring
  deriving DecidableEq, Repr

/-- A translation grant of a guest context (R428). -/
structure Grant where
  page : Nat
  size : Nat
  va : Nat
  r : Bool
  w : Bool
  a : Bool
  key : Nat
  irrev : Bool
  nolog : Bool
  deriving DecidableEq, Repr

/-- One guest context (R420, R428, R429): its GCTX register, its grants, oldest first, the INVALs that it owes an answer, each with its invalidation (none:
for the bound of R428) and its page (none: ALL), and the region of its SAVE or RESTORE. -/
structure GuestCtx where
  v : Bool
  cst : GuestCst
  lres : Nat
  plid : Nat
  grants : List Grant
  invs : List (Option Nat × Option Nat)
  region : Word
  deriving DecidableEq, Repr

/-- An entry of the return-tag table (R425): the packet's sender, tag, RET, FQC and window, and its completion once the guest sent it,
numbered by its arrival. -/
structure RTag where
  cl : Nat
  vp : Nat
  el : Nat
  plid : Nat
  tag : Tok
  ret : Nat
  fqc : Nat
  cid : Nat
  win : Nat
  gop : Nat
  done : Option (Nat × Nat × Word)
  ord : Nat
  poison : Bool
  deriving DecidableEq, Repr

/-- A message from the device to the guest die (R422, R426 to R430). -/
inductive GuestMsg where
  | gqp (rtag : Nat) (words : List Word)
  | trsp (cid page size : Nat) (r w a : Bool)
  | trspFault (cid code : Nat)
  | rdata (cid addr : Nat) (data : List Byte) (poison : Bool)
  | adata (cid addr : Nat) (old : Word) (poison : Bool)
  | snpInv (addr : Nat)
  | inval (cid : Nat) (va : Option Nat)
  | pause (cid : Nat)
  | resume (cid : Nat)
  | save (cid : Nat) (region : Word)
  | restore (cid : Nat) (region : Word)
  deriving DecidableEq, Repr

/-- The guest engine socket (R419 to R435). `pend` holds the requests that have been taken and wait: for room in a log, for a line that
another write holds, for the device's recall of a line, for a walk, or for a grant to end. -/
structure Guest where
  st : GuestSt
  ena : Bool
  pbexp : Nat
  fvec : Nat
  cause : Nat
  fences : BitVec 32
  cmd1 : Word
  ctxs : Tab GuestCtx
  tags : Tab RTag
  copies : List Nat
  recalls : List Nat
  pend : List (Instr × Arg)
  out : List GuestMsg
  deriving DecidableEq, Repr

/-- One Ethernet port (R443). -/
structure EthPort where
  ena : Bool
  modes : Nat
  maxlen : Nat
  dst : BitVec 128
  buf : Vector Word 64
  deriving DecidableEq, Repr

/-- R412, R438, R450: the answer of the HDM range: the bytes read, data that cannot be corrected, or a Completer Abort. -/
inductive HdmReply where
  | data (bytes : List Byte)
  | bad
  | abort
  deriving DecidableEq, Repr

/-- What the machine has sent to the outside world, oldest first (R295, R401, R443, R436). -/
inductive Out where
  /-- MSI-X vector raised (R442) -/
  | msix (v : Nat)
  /-- an Ethernet packet sent (R443) -/
  | eth (port : Nat) (dst : BitVec 128) (bytes : List Byte)
  /-- an acknowledgement (true) or refusal (false) of a RUD packet (R443) -/
  | rud (port : Nat) (ack : Bool)
  /-- a Krydeoft packet put on a link (R401) -/
  | krydeoft (port : Nat) (pkt : KPacket)
  /-- the answer of the HDM range to a host access (R412, R438) -/
  | hdm (reply : HdmReply)
  /-- the answer to a host read of a register or of BAR2 (R436, R439): none where it cannot be read without error -/
  | bar (value : Option Nat)
  /-- the answer RspIHitI to a host snoop (R436) -/
  | snoopRsp (addr : Nat)
  deriving DecidableEq, Repr

/-- An invalidation under way (R227): scope (0 page, 1 ASID, 2 all), its VA and ASID, the port entries, requests to other
packages and guest contexts it waits for (`told`: all that were told),
and the sequencer that issued it (none: the host). -/
structure Inval where
  k : Nat
  scope : Nat
  va : Nat
  asid : Nat
  issuer : Option Nat
  entries : List (Nat × Nat)
  rids : List Nat
  guests : List Nat
  told : List Nat
  deriving DecidableEq, Repr

/-- Package control and the other device registers (R440, R444, R445, R447). -/
structure Dev where
  boot : Nat
  goDone : Bool
  /-- DOMCFG (R440) -/
  domcfg : Word
  /-- MEMCFG (R214, R393), which every sequencer of the package reads -/
  memcfg : Word
  hinva : Word
  hinvc : Word
  hinvBusy : Bool
  hdmkey : Nat
  snapSeq : BitVec 32
  fcls : Nat
  pcap : Nat
  tinlet : Nat
  pmw : Nat
  lpbase : Nat
  lpsize : Nat
  epbase : Nat
  epsize : Nat
  mreg : Vector (BitVec 256) 8
  tenmap : Tab (BitVec 128)
  counters : Tab Word
  snap : Tab Word
  /-- the latched copies of the blocks' status registers, by their offsets (R446) -/
  snapRegs : Tab Word
  /-- the bytes of BAR2, the MSI-X table and PBA (R436) -/
  bar2 : Memory
  /-- the blocks that have still to latch (R446) -/
  latching : List Nat
  domain : Tab Word
  partition : Tab Masked
  group : Tab Masked
  keys : Tab Key
  /-- the secrets installed so far, oldest first -/
  secrets : List (List Byte)
  sessions : List (BitVec 128 × BitVec 256)
  response : List Byte
  receipt : List Byte
  sealKey : BitVec 256
  deriving DecidableEq, Repr

/-- Who issued a request to another package: a cluster's sequencer, an element's port entry, a copy command of a cluster, or the Reeve for a packet of a host queue. -/
inductive Owner where
  | seq (c : Nat)
  | entry (e k : Nat)
  | ce (c k : Nat)
  | queue (q id : Nat)
  /-- a guest context, whose translation walks (R428) -/
  | guest (k : Nat)
  deriving DecidableEq, Repr

/-- A request that a remote peer still has to answer (R398, R399): its number and issuer, the port it left by, the peer, and the part of
the access (`n` bytes at offset `off`) that it stands for. `mc`: a multicast copy (R415). -/
structure Remote where
  rid : Nat
  owner : Owner
  port : Nat
  peer : Nat
  off : Nat
  n : Nat
  mc : Bool
  /-- the key and the address of the request (R408) -/
  key : Nat := 0
  addr : Nat := 0
  deriving DecidableEq, Repr

/-- Who asked the PA for a placement (R85): the GLOAD of a cluster's sequencer, or a GLOAD or LAUNCH packet of a queue. -/
inductive PaReq where
  | seq (c : Nat)
  | packet (q id : Nat)
  deriving DecidableEq, Repr

/-- The firing that an element operator performs: element, context slot, instruction slot and the arrival numbers of
the tokens it takes (operand A, operand B, scale tokens). -/
structure Site where
  e : Nat
  x : Nat
  k : Nat
  a : Option Nat
  b : Option Nat
  scales : List Nat
  deriving DecidableEq, Repr

/-- A protected unit of storage (R450): a 64-bit word of a sequencer's local memory, of a commons or of a context's pool, or an HBM line; or a flit on
Krydeoft port `n` (R447). -/
inductive ErrAt where
  | seqWord (c word : Nat)
  | commons (c word : Nat)
  | pool (e x word : Nat)
  | hbm (line : Nat)
  | link (n : Nat)
  deriving DecidableEq, Repr

/-- Who moves next: the sequencer of a cluster, an element, an event; the end of the writing of a context slot (R349); a block that latches its
snapshot (R446); or an error in a unit of
storage, corrected or not (R16, R447). -/
inductive Agent where
  | seq (c : Nat)
  | elem (e : Nat)
  | event (ev : Instr) (arg : Arg)
  | filled (e x : Nat)
  | latch (b : Nat)
  | upset (u : ErrAt) (corrected : Bool)
  deriving DecidableEq, Repr

/-- A store that the host or the guest port has accepted and that has still to perform (R234, R252): a number of its own, its issuer, for a memory-port entry
its context slot, placement and frame, whether the issuer waits for it (scope SYSTEM), its place and its bytes. (DEDUCED, safe: log 36.) -/
structure Posted where
  id : Nat
  owner : Owner
  frame : Option (Nat × Nat × Nat)
  waits : Bool
  loc : Loc
  bytes : List Byte
  deriving DecidableEq, Repr

/-- R392: what a beat of a packet on a bridge belongs to: an entry of a memory port, a command of a copy engine, by its number, the access of a sequencer, or one of
the Reeve. -/
inductive BeatOf where
  | entry (e k : Nat)
  | ce (k : Nat)
  | seq (c : Nat)
  | reeve
  /-- the answer to a peer's request that came in at a port -/
  | port (n : Nat)
  /-- the answer to a host read -/
  | host
  deriving DecidableEq, Repr

/-- R220: how a walk ends. -/
inductive WalkEnd where
  | leaf (l : Leaf)
  | fault (code : Nat)
  deriving DecidableEq, Repr

/-- R220, R226: a walk of the page tables for an access of `who`, made by the walker of cluster `cl` (the Reeve has none): the root's key and ASID, the
address, the root's table, the level and the table to be read next, and its end, once it has come. -/
structure Walk where
  who : Owner
  cl : Nat
  key : Nat
  asid : Nat
  va : Nat
  top : Nat
  lvl : Nat
  tbl : Nat
  res : Option WalkEnd
  deriving DecidableEq, Repr

/-- The whole package. `cur` is the cluster whose sequencer executes; `site` the firing that the current element operator performs; `arg` what the
current event is about;
`agenda` the moves that are due, first first; `inputs` what the outside world will still do, in its order; `turn` counts choices left open; `free` counts free values drawn;
`posted` holds the stores that the host and guest ports have accepted, oldest first; `retries` counts the failed retransmissions of a beat by bridge (R392). -/
structure State where
  cur : Nat
  site : Option Site
  arg : Arg
  agenda : List Agent
  inputs : List Agent
  /-- R427: writes from outside that wait until the guest has given up its copy of an HBM line, by line -/
  stalled : List (Nat × Agent)
  turn : Nat
  free : Nat
  seqs : Tab Seq
  elems : Tab Elem
  clusters : Tab Cluster
  dieTlb : Tab (List Leaf)
  places : Tab Placement
  /-- the request for which the PA compacts (R86) -/
  pa : Option PaReq
  /-- releases of plot-contexts so far (R86) -/
  releases : Nat
  spills : List Spilled
  hbm : Memory
  hbmKey : Tab Nat
  hbmErr : List Nat
  hostMem : Memory
  guestMem : Memory
  posted : List Posted
  retries : List (Nat × BeatOf × Nat)
  walks : List Walk
  invals : List Inval
  nextInval : Nat
  queues : Tab Queue
  reeveRr : Nat
  reeveCyc : Nat
  notices : List Nat
  evictions : Nat
  /-- the releases after which evicted plots have been tried (R348) -/
  restored : Nat
  rings : Tab Ring
  eth : Tab EthPort
  kports : Tab KPort
  /-- the links of the domain as the Reeve knows them (R404) -/
  links : List Link
  remotes : List Remote
  nextRid : Nat
  guest : Guest
  dev : Dev
  out : List Out
  nextFault : Nat
  nextCmd : Nat
  deriving DecidableEq, Repr

/-- Why the machine stops. No step of this machine ends in one of these but where its docstring says so. -/
inductive Fault where
  /-- An event names a unit that the package does not have (an element, cluster, queue, port or entry out of range). Raised by the event meanings on an ill-formed event; safe. -/
  | noUnit
  deriving DecidableEq, Repr

/-- Why a step has no meaning. -/
inductive Refusal where
  /-- An instruction whose meaning is not written. Raised by refused arms of exec only; safe. -/
  | notModelled (mnemonic : String)
  deriving DecidableEq, Repr

/-- R115: the word of a vacant instruction slot. -/
def vacant : BitVec 32 := 0x0BFFFF00#32

/-- A sequencer after cold reset (R13, R17, R20 to R22, R214, R325). (DESIGN CHOICE, unsafe: log 8.) -/
def seqReset : Seq where
  run := .held
  pc := 0
  pcv := 0
  g := Vector.replicate 32 0
  status := 1
  tvec := 0
  tpc := 0
  tcause := 0
  tval := 0
  kscratch := 0
  twin := 1
  cycle := 0
  tcmp := 0xFFFFFFFFFFFFFFFF#64
  ptbase := 0
  asid := 0
  fqhead := 0
  fqtail := 0
  mbox := Vector.replicate 4 0
  evb := Vector.replicate 4 0
  evm := Vector.replicate 4 0
  cmnscr := 60
  fqbase := 59
  fqseq := 0
  wait := none
  loaded := 0
  stopReq := false
  tlb := none
  mem := []
  memErr := []

/-- A free context slot (R55, R82, R112: the Reset columns). -/
def ctxFree : Ctx where
  st := .free
  plid := 0
  vp := 0
  el := 0
  words := Vector.replicate 16 vacant
  attr := Vector.replicate 16 0
  sw := Vector.replicate 16 0
  routes := Vector.replicate 14 0
  ccw := 0
  part := 0
  standing := 0
  pool := []
  poolErr := []
  ms := []
  fifo := Vector.replicate 14 []
  inflight := []
  spillcnt := 0
  throtcnt := 0
  throttled := false
  newPrio := none
  evcl := 0
  wins := []
  budget := []
  stepped := []
  paused := []
  pauseReq := []
  stagings := []
  marksIn := []
  waitIn := []
  spillKills := []
  order := []

/-- An element after cold reset. (DESIGN CHOICE, unsafe: log 117.) -/
def elemReset : Elem where
  ctx := Vector.replicate 4 ctxFree
  rr := 0
  cyc := 0
  lastArb := 0
  busy := Vector.replicate 8 []
  beats := []
  streams := Vector.replicate 8 none
  port := []
  nextId := 0
  nextOrd := 0

/-- A cluster's other blocks after cold reset (R73, R335). -/
def clusterReset : Cluster where
  com := []
  comErr := []
  copies := []
  tlb := []
  recq := []
  dir := []
  stalecnt := 0
  straycnt := 0
  poisoncnt := 0
  lastStray := none
  act := []
  marked := []
  evAt := Vector.replicate 4 0
  evCyc := 0
  ce := []

/-- The recorder's state of a frame in mode OFF (R351). -/
def logOff : Log where
  mode := 0
  base := 0
  lg := 0
  head := 0
  tail := 0
  floor := 0
  below := 0
  win := 0
  states := []
  seen := []
  cut := none
  cutEvent := none
  pooled := false
  waiting := []
  exempt := []
  drained := []
  nets := []
  gaps := []

/-- A frame that is not allocated (R91). (DESIGN CHOICE, unsafe: log 15.) -/
def frameFree : Frame where
  st := .free
  gen := 0
  home := 0
  even := false
  evb := 0
  csp := 0
  region := 0
  regionSize := 0
  pages := []
  hold := false
  ringHolds := 0
  lastSum := 0
  old := []
  round := none
  asked := []
  announced := false
  quiet := []
  bump := none
  log := logOff
  paused := false
  episodes := []
  launch := none

/-- A host queue after cold reset (R296). -/
def queueReset : Queue where
  st := .disabled
  evec := 0
  qprio := 0
  opmask := 0
  ptbase := 0
  asid := 0
  ridx := 0
  widx := 0
  stalew := 0
  qbase := 0
  owner := 0
  rights := 0
  log2n := 0
  ranges := Vector.replicate 8 0
  cap := Vector.replicate 4 0
  errec := Vector.replicate 8 0
  cur := none
  going := []
  since := 0

/-- A Krydeoft port after cold reset (R402). -/
def kportReset : KPort where
  st := .down
  ena := false
  lanes := 0
  capf := 0
  retrn := 0
  credits := Vector.replicate 4 0
  shared := 0
  held := []

/-- An entry of the partition or group table after cold reset (R395, R413). -/
def maskedReset : Masked where
  w0 := 0
  mask := Vector.replicate 8 0

/-- A key-table entry after cold reset (R395). -/
def keyReset : Key where
  v := false
  pidx := 0
  serial := 0
  secret := []
  sid := 0
  revoking := false

/-- A guest context after cold reset (R420). -/
def guestCtxReset : GuestCtx where
  v := false
  cst := .run
  lres := 0
  plid := 0
  grants := []
  invs := []
  region := 0

/-- The guest engine socket after cold reset (R420). -/
def guestReset : Guest where
  st := .down
  ena := false
  pbexp := 16
  fvec := 0
  cause := 0
  fences := 0
  cmd1 := 0
  ctxs := []
  tags := []
  copies := []
  recalls := []
  pend := []
  out := []

/-- An Ethernet port after cold reset (R443). -/
def ethReset : EthPort where
  ena := false
  modes := 0
  maxlen := 9216
  dst := 0
  buf := Vector.replicate 64 0

/-- The device registers after cold reset, before the boot ROM has run (R440, R444, R447). -/
def devReset : Dev where
  boot := 0
  goDone := false
  domcfg := 0
  memcfg := 0
  hinva := 0
  hinvc := 0
  hinvBusy := false
  hdmkey := 0
  snapSeq := 0
  fcls := 0
  pcap := 3600
  tinlet := 0
  pmw := 0
  lpbase := 0
  lpsize := 0
  epbase := 0
  epsize := 0
  mreg := Vector.replicate 8 0
  tenmap := []
  counters := []
  snap := []
  snapRegs := []
  bar2 := []
  latching := []
  domain := []
  partition := []
  group := []
  keys := []
  secrets := []
  sessions := []
  response := []
  receipt := []
  sealKey := 0

/-- The machine right after cold reset: every sequencer HELD, every register at its reset value, nothing placed, the boot ROM about to
run (R449). The round-robin pointer of the Reeve starts at 0 (R308). (DESIGN CHOICE, unsafe: log 135.) -/
def State.reset : State where
  cur := 0
  site := none
  arg := {}
  agenda := []
  inputs := []
  stalled := []
  turn := 0
  free := 0
  seqs := []
  elems := []
  clusters := []
  dieTlb := []
  places := []
  pa := none
  releases := 0
  spills := []
  hbm := []
  hbmKey := []
  hbmErr := []
  hostMem := []
  guestMem := []
  posted := []
  retries := []
  walks := []
  invals := []
  nextInval := 0
  queues := []
  reeveRr := 0
  reeveCyc := 0
  notices := []
  evictions := 0
  restored := 0
  rings := []
  eth := []
  kports := []
  links := []
  remotes := []
  nextRid := 0
  guest := guestReset
  dev := devReset
  out := []
  nextFault := 0
  nextCmd := 0

end Sys2Proof.Machine
end

