-- ==== Sys2Proof/Machine/Tab.lean ====
section
/-! DEFINITION. Operations over tables by number, over byte memories in canonical form, and over the bit fields and the byte order of words
(R7, R8, R11). -/

namespace Sys2Proof.Machine

/-- The entry of a table. -/
def Tab.get? {α : Type} : Tab α → Nat → Option α
  | [], _ => none
  | (j, v) :: t, k => if j = k then some v else Tab.get? t k

/-- The entry of a table, or the block's reset value. -/
def Tab.getD {α : Type} (t : Tab α) (k : Nat) (d : α) : α := (Tab.get? t k).getD d

/-- Write an entry, keeping the keys in rising order. -/
def Tab.set {α : Type} : Tab α → Nat → α → Tab α
  | [], k, v => [(k, v)]
  | (j, w) :: t, k, v =>
    if j < k then (j, w) :: Tab.set t k v
    else if j = k then (k, v) :: t
    else (k, v) :: (j, w) :: t

/-- Remove an entry. -/
def Tab.del {α : Type} (t : Tab α) (k : Nat) : Tab α := t.filter (fun p => p.1 != k)

/-- The numbers that a table lists. -/
def Tab.keys {α : Type} (t : Tab α) : List Nat := t.map Prod.fst

/-- One byte of a memory; an unlisted byte reads as zero. (DESIGN CHOICE, unsafe: log 6.) -/
def memByte : Memory → Nat → Byte
  | [], _ => 0
  | (k, v) :: m, a => if k = a then v else memByte m a

/-- Write one byte, keeping the canonical form. -/
def memSet : Memory → Nat → Byte → Memory
  | [], a, v => if v = 0 then [] else [(a, v)]
  | (k, w) :: m, a, v =>
    if k < a then (k, w) :: memSet m a v
    else if k = a then (if v = 0 then m else (a, v) :: m)
    else if v = 0 then (k, w) :: m else (a, v) :: (k, w) :: m

/-- `n` bytes from address `a`, lowest address first. -/
def memRead (m : Memory) (a n : Nat) : List Byte := (List.range n).map (fun i => memByte m (a + i))

/-- Write bytes from address `a` on. -/
def memWrite : Memory → Nat → List Byte → Memory
  | m, _, [] => m
  | m, a, b :: bs => memWrite (memSet m a b) (a + 1) bs

/-- Clear `n` bytes from address `a`. -/
def memClear (m : Memory) (a n : Nat) : Memory := m.filter (fun c => decide (c.1 < a ∨ a + n ≤ c.1))

/-- The canonical form: addresses strictly rising, no listed byte zero. -/
def memWf : Memory → Bool
  | [] => true
  | [(_, v)] => v != 0
  | (a, v) :: (b, w) :: m => decide (a < b) && v != 0 && memWf ((b, w) :: m)

/-- R7: bytes as a number, the lowest address holding bits [7:0]. -/
def leNat : List Byte → Nat
  | [] => 0
  | b :: bs => b.toNat + 256 * leNat bs

/-- R7: the low `n` bytes of a number, lowest address first. -/
def leBytes : Nat → Nat → List Byte
  | 0, _ => []
  | n + 1, v => BitVec.ofNat 8 v :: leBytes n (v / 256)

/-- A word stored at `a`. -/
def memWord (m : Memory) (a : Nat) : Word := BitVec.ofNat 64 (leNat (memRead m a 8))

/-- The 64-bit words that a list of bytes holds. -/
def wordsOf (fuel : Nat) (bs : List Byte) : List Word :=
  match fuel, bs with
  | 0, _ => []
  | _, [] => []
  | f + 1, bs => BitVec.ofNat 64 (leNat (bs.take 8)) :: wordsOf f (bs.drop 8)

/-- The bytes of a list of words. -/
def bytesOfWords (ws : List Word) : List Byte := ws.flatMap (fun w => leBytes 8 w.toNat)

/-- Word `n` of a list of bytes. -/
def wordAt (bs : List Byte) (n : Nat) : Word := BitVec.ofNat 64 (leNat ((bs.drop (8 * n)).take 8))

/-- Overwrite part of a list of bytes from position `at` on. -/
def spliceBytes (bs : List Byte) (i : Nat) (new : List Byte) : List Byte :=
  bs.take i ++ new ++ bs.drop (i + new.length)

/-- A word with the field of `n` bits at bit `lo` replaced. -/
def setField (w : Word) (lo n v : Nat) : Word :=
  BitVec.ofNat 64 (w.toNat % 2 ^ lo + (v % 2 ^ n) * 2 ^ lo + w.toNat / 2 ^ (lo + n) * 2 ^ (lo + n))

/-- A word with bit `k` replaced. -/
def setBit (w : Word) (k : Nat) (b : Bool) : Word := setField w k 1 b.toNat

/-- R8: a write that reaches only the bits of `mask`. -/
def maskWrite (old new mask : Word) : Word := (old &&& ~~~mask) ||| (new &&& mask)

/-- The lowest bit that is 1. -/
def lowestBit (w : Word) : Option Nat := (List.range 64).find? (fun k => bit w k)

/-- A number of `n` bits read as two's complement. -/
def signed (n v : Nat) : Int := if v % 2 ^ n < 2 ^ (n - 1) then ((v % 2 ^ n : Nat) : Int) else (v % 2 ^ n : Nat) - (2 ^ n : Nat)

/-- An integer modulo 2^64, as a word (R11). -/
def wordI (z : Int) : Word := BitVec.ofInt 64 z

/-- Replace the element of a list at a position. -/
def setAt {α : Type} : List α → Nat → α → List α
  | [], _, _ => []
  | _ :: l, 0, v => v :: l
  | a :: l, k + 1, v => a :: setAt l k v

/-- A list without its first element that satisfies `p`. -/
def eraseFirst {α : Type} (p : α → Bool) : List α → List α
  | [] => []
  | a :: l => if p a then l else a :: eraseFirst p l

/-- The element of a vector at a number, or a default beyond its end. -/
def vget {α : Type} {n : Nat} (v : Vector α n) (k : Nat) (d : α) : α := v.toList.getD k d

/-- A vector with the element at a number replaced; beyond its end, unchanged. -/
def vset {α : Type} {n : Nat} (v : Vector α n) (k : Nat) (x : α) : Vector α n := v.setIfInBounds k x

end Sys2Proof.Machine
end

