-- ==== Sys2Proof/Machine/Ops.lean ====
section
/-! DEFINITION. The named operations over the machine's parts: reading and writing a sequencer, an element, a context, a cluster, a
placement, a frame; general registers; taking a trap and returning from one (R28). -/

namespace Sys2Proof.Machine

/-- What a meaning answers: a next state, a fault or a refusal. -/
abbrev Result := Host.Outcome State Fault Refusal

/-- An event about a unit that the package has; a unit beyond its numbers (R3, R84, R296) is no part of the machine. -/
def onUnit (there : Bool) (t : State) : Result := if there then .next t else .fault .noUnit

/-- The package has cluster `c`. -/
def okC (c : Nat) : Bool := decide (c < 576)
/-- The package has context slot `x` of element `e`. -/
def okX (e x : Nat) : Bool := decide (e < 9216 ∧ x < 4)
/-- The package has element `e`. -/
def okE (e : Nat) : Bool := decide (e < 9216)
/-- The package has host queue `q`. -/
def okQ (q : Nat) : Bool := decide (q < 4096)
/-- The package has Krydeoft port `n`. -/
def okN (n : Nat) : Bool := decide (n < 24)

/-! Parts of the package -/

/-- The sequencer of a cluster. -/
def State.seqOf (s : State) (c : Nat) : Seq := Tab.getD s.seqs c seqReset

/-- Replace the sequencer of a cluster. -/
def State.setSeq (s : State) (c : Nat) (q : Seq) : State := { s with seqs := Tab.set s.seqs c q }

/-- The sequencer that executes. -/
def State.me (s : State) : Seq := s.seqOf s.cur

/-- Replace the sequencer that executes. -/
def State.setMe (s : State) (q : Seq) : State := s.setSeq s.cur q

/-- The element of a number (R84: physical plot times 4 plus element). -/
def State.elemOf (s : State) (e : Nat) : Elem := Tab.getD s.elems e elemReset

/-- Replace an element. -/
def State.setElem (s : State) (e : Nat) (v : Elem) : State := { s with elems := Tab.set s.elems e v }

/-- A context slot of an element. -/
def State.ctxOf (s : State) (e x : Nat) : Ctx := vget (s.elemOf e).ctx x ctxFree

/-- Replace a context slot of an element. -/
def State.setCtx (s : State) (e x : Nat) (c : Ctx) : State :=
  s.setElem e { s.elemOf e with ctx := vset (s.elemOf e).ctx x c }

/-- Change a context slot. -/
def State.updCtx (s : State) (e x : Nat) (f : Ctx → Ctx) : State := s.setCtx e x (f (s.ctxOf e x))

/-- The other blocks of a cluster. -/
def State.clusterOf (s : State) (c : Nat) : Cluster := Tab.getD s.clusters c clusterReset

/-- Change the other blocks of a cluster. -/
def State.updCluster (s : State) (c : Nat) (f : Cluster → Cluster) : State :=
  { s with clusters := Tab.set s.clusters c (f (s.clusterOf c)) }

/-- The cluster that holds an element: sixteen elements each. -/
def clusterOfElem (e : Nat) : Nat := e / 16

/-- A placement, if its PLID is placed. -/
def State.placeOf (s : State) (p : Nat) : Option Placement := Tab.get? s.places p

/-- Change a placement. -/
def State.updPlace (s : State) (p : Nat) (f : Placement → Placement) : State :=
  match s.placeOf p with
  | some pl => { s with places := Tab.set s.places p (f pl) }
  | none => s

/-- A frame of a placement; a frame of a placement that is not there is free. -/
def State.frameOf (s : State) (p f : Nat) : Frame :=
  match s.placeOf p with
  | some pl => Tab.getD pl.frames f frameFree
  | none => frameFree

/-- Change a frame of a placement. -/
def State.updFrame (s : State) (p f : Nat) (g : Frame → Frame) : State :=
  s.updPlace p (fun pl => { pl with frames := Tab.set pl.frames f (g (Tab.getD pl.frames f frameFree)) })

/-- R57: the current GEN of a frame in the table of cluster `c`'s crier. -/
def State.genAt (s : State) (p f c : Nat) : BitVec 2 :=
  let fr := s.frameOf p f
  if fr.old.contains c then fr.gen - 1 else fr.gen

/-- A host queue. -/
def State.queueOf (s : State) (q : Nat) : Queue := Tab.getD s.queues q queueReset

/-- Change a host queue. -/
def State.updQueue (s : State) (q : Nat) (f : Queue → Queue) : State :=
  { s with queues := Tab.set s.queues q (f (s.queueOf q)) }

/-- Change the device registers. -/
def State.updDev (s : State) (f : Dev → Dev) : State := { s with dev := f s.dev }

/-- Change the guest socket. -/
def State.updGuest (s : State) (f : Guest → Guest) : State := { s with guest := f s.guest }

/-- Send something to the outside world. -/
def State.emitOut (s : State) (o : Out) : State := { s with out := s.out ++ [o] }

/-- R447: a counter adds `n`, modulo 2^64. -/
def State.count (s : State) (off n : Nat) : State :=
  s.updDev (fun d => { d with counters := Tab.set d.counters off (Tab.getD d.counters off 0 + word n) })

/-- Something that is due at once: it happens before any other agent moves. -/
def State.due (s : State) (ev : Instr) (a : Arg := {}) : State := { s with agenda := s.agenda ++ [.event ev a] }

/-! General registers (R17) -/

/-- g[r]; g0 reads as zero. -/
def Seq.reg (q : Seq) (r : BitVec 5) : Word := if r = 0 then 0 else vget q.g r.toNat 0

/-- g[r] ← v; a write to g0 is discarded. -/
def Seq.setReg (q : Seq) (r : BitVec 5) (v : Word) : Seq := if r = 0 then q else { q with g := vset q.g r.toNat v }

/-- A general register of the sequencer that executes, as it stands at issue (R23). -/
def State.reg (s : State) (r : BitVec 5) : Word := s.me.reg r

/-! The end of an instruction (R35, R13) -/

/-- R13, R442: a stop that was asked for lands at this instruction boundary; PCV is the address of the next instruction. -/
def Seq.boundary (q : Seq) : Seq :=
  if q.stopReq && q.run == .running then { q with run := .halted, stopReq := false, pcv := q.pc } else { q with stopReq := false }

/-- The instruction at pc has executed in `cost` cycles and the next stands at `pc'`. (DEDUCED, unsafe: log 10.) (DEDUCED, unsafe: log 110.) -/
def Seq.finish (q : Seq) (pc' : Word) (cost : Nat) : Seq :=
  { q with pc := pc', cycle := q.cycle + word cost, wait := none }.boundary

/-- The sequencer that executes writes g[d] and goes on to the next instruction. -/
def State.result (s : State) (d : BitVec 5) (v : Word) (cost : Nat) : State :=
  s.setMe ((s.me.setReg d v).finish (s.me.pc + 4) cost)

/-- The sequencer that executes goes on to the next instruction. -/
def State.advance (s : State) (cost : Nat) : State := s.setMe (s.me.finish (s.me.pc + 4) cost)

/-- R35: a load makes the next instruction wait one more cycle if it reads the loaded register. -/
def State.loaded (s : State) (d : BitVec 5) : State := s.setMe { s.me with loaded := d }

/-! STATUS (R20) -/

def stLVL : Nat := 0
def stPLVL : Nat := 1
def stIE : Nat := 2
def stPIE : Nat := 3
def stXE : Nat := 8
def stINTRAP : Nat := 9
def stDT : Nat := 10

/-- R18: the sequencer is at Kernel level. -/
def Seq.kernel (q : Seq) : Bool := bit q.status stLVL

/-- R20: translation is enabled. -/
def Seq.xe (q : Seq) : Bool := bit q.status stXE

/-! Fault codes (R323) -/

def cILLEGAL : Nat := 0x01
def cRESERVED : Nat := 0x02
def cDIVZERO : Nat := 0x03
def cOVERFLOW : Nat := 0x04
def cTRANSLATION : Nat := 0x05
def cPERMISSION : Nat := 0x06
def cALIGNMENT : Nat := 0x07
def cPOISON : Nat := 0x08
def cSPILL : Nat := 0x09
def cDEADLOCK : Nat := 0x0A
def cTRAPOP : Nat := 0x0B
def cLOGFULL : Nat := 0x0C
def cPEER : Nat := 0x0D
def cBOUNDS : Nat := 0x0E
def cGUEST : Nat := 0x0F
def cTILESHAPE : Nat := 0x10
def cCOLOUR : Nat := 0x11
def cINTEGRITY : Nat := 0x12
def cIRREVOCABLE : Nat := 0x13
def cPLACEMENT : Nat := 0x14
def cSTRAY : Nat := 0x15

/-! Traps (R28) -/

/-- R28 TrapEntry: DT for a trap within a trap; TPC, TCAUSE and TVAL; the level, IE and INTRAP; then the handler's address, or HALTED for a
double trap, with PCV the value written to TPC (R442). A stop asked for while the trapping instruction waited lands at the boundary before the handler's
first instruction (R442). Class E: 3 cycles (R35). -/
def trapEntry (code sub : Nat) (val : Word) (isInt : Bool) (pcTrap : Word) (q : Seq) : Seq :=
  let st0 := if !isInt && bit q.status stINTRAP then setBit q.status stDT true else q.status
  let st1 := setBit (setBit st0 stPLVL (bit st0 stLVL)) stPIE (bit st0 stIE)
  let st2 := setBit (setBit (setBit st1 stLVL true) stIE false) stINTRAP true
  let q1 := { q with
    tpc := maskWrite 0 pcTrap 0xFFFFFFFFFFFFFFFC#64
    tcause := word (at' isInt.toNat 63 + at' sub 8 + code)
    tval := val
    status := st2
    wait := none
    loaded := 0
    cycle := q.cycle + 3 }
  if bit st2 stDT then { q1 with run := .halted, stopReq := false, pcv := q1.tpc }
  else { q1 with pc := maskWrite 0 q.tvec 0xFFFFFFFFFFFFFFFC#64 }.boundary

/-- A synchronous trap of the instruction at pc (R25): nothing else changes. -/
def State.trap (s : State) (code sub : Nat) (val : Word) : State :=
  s.setMe (trapEntry code sub val false s.me.pc s.me)

/-- The word of an instruction, as the trap value of rows 4 and 5 of R27. -/
def instrWord (i : Instr) : Word := BitVec.setWidth 64 ((encode i).getD 0)

/-- R28 TRET: pc, level and IE as TPC and STATUS saved them, INTRAP cleared. Class B: 2 cycles. -/
def trapReturn (q : Seq) : Seq :=
  let st := setBit (setBit (setBit q.status stLVL (bit q.status stPLVL)) stIE (bit q.status stPIE)) stINTRAP false
  { q with status := st }.finish (maskWrite 0 q.tpc 0xFFFFFFFFFFFFFFFC#64) 2

/-- R18: an instruction that only Kernel level may execute traps with PERMISSION at Task level. -/
def kernelOnly (i : Instr) (s : State) (body : State) : State :=
  if s.me.kernel then body else s.trap cPERMISSION 0 (instrWord i)

/-! Free values -/

/-- Draw the next number of a free value. -/
def State.draw (s : State) : State := { s with free := s.free + 1 }

/-- R29: the word that a sequencer fetches. -/
def fetchWord (q : Seq) : BitVec 32 := BitVec.ofNat 32 (leNat (memRead q.mem q.pc.toNat 4))

end Sys2Proof.Machine
end

