-- ==== Sys2Proof/Machine/Flags.lean ====
section
/-! DEFINITION. The flags of a sequencer: interrupt causes and their enables (R26, R47, R50), Task-level windows (R21), and the
control registers with their access codes (R19 to R22, R214, R217, R325). -/

namespace Sys2Proof.Machine

/-- R22: CYCLE ≥ TCMP, unsigned. -/
def Seq.timerPending (q : Seq) : Bool := decide (q.tcmp.toNat ≤ q.cycle.toNat)

/-- R26: the lowest n with MBOXn ≠ 0. -/
def Seq.messagePending (q : Seq) : Option Nat := (List.range 4).find? (fun n => vget q.mbox n 0 != 0)

/-- R26: the lowest event bit 64n+i that is set and unmasked. -/
def Seq.eventPending (q : Seq) : Option Nat :=
  (List.range 256).find? (fun k => bit (vget q.evb (k / 64) 0) (k % 64) && bit (vget q.evm (k / 64) 0) (k % 64))

/-- R26: FQHEAD.HEAD ≠ FQTAIL.TAIL. -/
def Seq.faultQueuePending (q : Seq) : Bool := q.fqhead != q.fqtail

/-- R26: the TVAL of an interrupt cause while it is pending. -/
def Seq.causeVal (q : Seq) (code : Nat) : Option Word :=
  match code with
  | 0 => if q.faultQueuePending then some 0 else none
  | 1 => q.messagePending.map word
  | 2 => q.eventPending.map word
  | 3 => if q.timerPending then some q.cycle else none
  | _ => none

/-- R20: the IEN bit of a cause: IEN_FQ [4], IEN_MSG [5], IEN_EVT [6], IEN_TMR [7]. -/
def Seq.causeEnabled (q : Seq) (code : Nat) : Bool := bit q.status (4 + code)

/-- R26: the pending enabled cause of lowest CODE, with its TVAL. -/
def Seq.enabledCause (q : Seq) : Option (Nat × Word) :=
  (List.range 4).findSome? (fun c => if q.causeEnabled c then (q.causeVal c).map (fun v => (c, v)) else none)

/-- R50: WFE's wake condition; STATUS.IE is disregarded. -/
def Seq.wakes (q : Seq) : Bool := q.enabledCause.isSome

/-- R25: an interrupt is taken at this boundary. -/
def Seq.interrupts (q : Seq) : Bool := bit q.status stIE && q.wakes

/-- R21: Task level may touch a 4 KiB page of the local window. -/
def Seq.taskPage (q : Seq) (addr : Nat) : Bool :=
  decide (field q.twin 0 6 ≤ addr / 4096 % 64 ∧ addr / 4096 % 64 ≤ field q.twin 8 6)

/-- R14: the size of the local window. -/
def windowSize : Nat := 0x40000

/-- R22: the CLID of a cluster: die [9:7], cluster within the die [6:0]. -/
def clid (c : Nat) : Word := word (at' (c / 96) 7 + c % 96)

/-- A control register as it is read (R19); none for an unassigned number. -/
def crRead (s : State) (c n : Nat) : Option Word :=
  let q := s.seqOf c
  match n with
  | 0x000 => some q.status
  | 0x001 => some q.tvec
  | 0x002 => some q.tpc
  | 0x003 => some q.tcause
  | 0x004 => some q.tval
  | 0x005 => some q.kscratch
  | 0x006 => some q.twin
  | 0x010 => some q.cycle
  | 0x011 => some q.tcmp
  | 0x020 => some (clid c)
  | 0x030 => some q.ptbase
  | 0x031 => some q.asid
  | 0x040 => some q.fqhead
  | 0x041 => some q.fqtail
  | 0x050 => some (vget q.mbox 0 0)
  | 0x051 => some (vget q.mbox 1 0)
  | 0x052 => some (vget q.mbox 2 0)
  | 0x053 => some (vget q.mbox 3 0)
  | 0x060 => some (vget q.evb 0 0)
  | 0x061 => some (vget q.evb 1 0)
  | 0x062 => some (vget q.evb 2 0)
  | 0x063 => some (vget q.evb 3 0)
  | 0x064 => some (vget q.evm 0 0)
  | 0x065 => some (vget q.evm 1 0)
  | 0x066 => some (vget q.evm 2 0)
  | 0x067 => some (vget q.evm 3 0)
  | 0x100 => some q.cmnscr
  | 0x101 => some s.dev.memcfg
  | 0x102 => some q.fqbase
  | 0x103 => some q.fqseq
  | _ => none

/-- R8, R20 to R22, R214, R217, R325: the bits of a control register that a write reaches. -/
def crMask (n : Nat) : Word :=
  match n with
  | 0x000 => 0x3FE
  | 0x001 => 0xFFFFFFFFFFFFFFFC#64
  | 0x002 => 0xFFFFFFFFFFFFFFFC#64
  | 0x003 => 0x800000000000FFFF#64
  | 0x004 => 0xFFFFFFFFFFFFFFFF#64
  | 0x005 => 0xFFFFFFFFFFFFFFFF#64
  | 0x006 => 0x3F3F
  | 0x011 => 0xFFFFFFFFFFFFFFFF#64
  | 0x030 => 0x07FFCFFFFFFFC000#64
  | 0x031 => 0xFFFF
  | 0x040 => 0x3FF
  | 0x050 => 0xFFFFFFFFFFFFFFFF#64
  | 0x051 => 0xFFFFFFFFFFFFFFFF#64
  | 0x052 => 0xFFFFFFFFFFFFFFFF#64
  | 0x053 => 0xFFFFFFFFFFFFFFFF#64
  | 0x060 => 0xFFFFFFFFFFFFFFFF#64
  | 0x061 => 0xFFFFFFFFFFFFFFFF#64
  | 0x062 => 0xFFFFFFFFFFFFFFFF#64
  | 0x063 => 0xFFFFFFFFFFFFFFFF#64
  | 0x064 => 0xFFFFFFFFFFFFFFFF#64
  | 0x065 => 0xFFFFFFFFFFFFFFFF#64
  | 0x066 => 0xFFFFFFFFFFFFFFFF#64
  | 0x067 => 0xFFFFFFFFFFFFFFFF#64
  | 0x100 => 0x3F
  | 0x102 => 0x3F
  | _ => 0

/-- R215: the first commons byte beyond the scratchpad. -/
def scrBytes (v : Word) : Nat := field v 0 6 * 65536

/-- R309: the least SCRU that keeps every bound ring of a cluster inside the scratchpad. -/
def ringScru (s : State) (c : Nat) : Nat :=
  s.rings.foldl (fun m r => if r.2.cl = c then max m ((r.2.ctl + 128 + 2 ^ r.2.lg + 65535) / 65536) else m) 0

/-- R214, R215, R309, R325: CMNSCR takes SCRU, 60 for a larger value, and at least UNIT + 1, so that the fault queue stays in the scratchpad,
and likewise for every bound ring. Bytes that pass from cache to scratchpad read as zero, cached lines held in
them are dropped; bytes that pass from scratchpad to cache lose their contents. -/
def writeCmnscr (s : State) (c : Nat) (v : Word) : State :=
  let old := (s.seqOf c).cmnscr
  let new := word (max (max (min (field v 0 6) 60) (field (s.seqOf c).fqbase 0 6 + 1)) (ringScru s c))
  let lo := min (scrBytes old) (scrBytes new)
  let hi := max (scrBytes old) (scrBytes new)
  let s1 := s.setSeq c { s.seqOf c with cmnscr := new }
  if lo = hi then s1
  else s1.updCluster c (fun k => { k with
    com := memClear k.com lo (hi - lo)
    comErr := k.comErr.filter (fun u => decide (8 * u < lo ∨ hi ≤ 8 * u))
    copies := if scrBytes old < scrBytes new then [] else k.copies })

/-- R46: a control register written field by field. CMNSCR moves the boundary of R215 as it is written; FQBASE takes at
most 59, and nothing while the fault queue holds an unread record (R325). -/
def crWrite (s : State) (c n : Nat) (v : Word) : State :=
  let q := s.seqOf c
  let w := maskWrite ((crRead s c n).getD 0) v (crMask n)
  match n with
  | 0x000 => s.setSeq c { q with status := w }
  | 0x001 => s.setSeq c { q with tvec := w }
  | 0x002 => s.setSeq c { q with tpc := w }
  | 0x003 => s.setSeq c { q with tcause := w }
  | 0x004 => s.setSeq c { q with tval := w }
  | 0x005 => s.setSeq c { q with kscratch := w }
  | 0x006 => s.setSeq c { q with twin := w }
  | 0x011 => s.setSeq c { q with tcmp := w }
  | 0x030 => s.setSeq c { q with ptbase := w }
  | 0x031 => s.setSeq c { q with asid := w }
  | 0x040 => s.setSeq c { q with fqhead := w }
  | 0x050 => s.setSeq c { q with mbox := vset q.mbox 0 w }
  | 0x051 => s.setSeq c { q with mbox := vset q.mbox 1 w }
  | 0x052 => s.setSeq c { q with mbox := vset q.mbox 2 w }
  | 0x053 => s.setSeq c { q with mbox := vset q.mbox 3 w }
  | 0x060 => s.setSeq c { q with evb := vset q.evb 0 w }
  | 0x061 => s.setSeq c { q with evb := vset q.evb 1 w }
  | 0x062 => s.setSeq c { q with evb := vset q.evb 2 w }
  | 0x063 => s.setSeq c { q with evb := vset q.evb 3 w }
  | 0x064 => s.setSeq c { q with evm := vset q.evm 0 w }
  | 0x065 => s.setSeq c { q with evm := vset q.evm 1 w }
  | 0x066 => s.setSeq c { q with evm := vset q.evm 2 w }
  | 0x067 => s.setSeq c { q with evm := vset q.evm 3 w }
  | 0x100 => writeCmnscr s c w
  | 0x102 => if q.fqhead = q.fqtail then s.setSeq c { q with fqbase := word (min (field w 0 6) 59) } else s
  | _ => s

/-- R168, R49: one event bit of a cluster: 0 set, 1 clear, 2 toggle. -/
def eventOp (s : State) (c op k : Nat) : State :=
  let q := s.seqOf c
  let w := vget q.evb (k % 256 / 64) 0
  let b := bit w (k % 64)
  let nb := if op = 0 then true else if op = 1 then false else !b
  s.setSeq c { q with evb := vset q.evb (k % 256 / 64) (setBit w (k % 64) nb) }

end Sys2Proof.Machine
end

