-- ==== Sys2Proof/Machine/Operands.lean ====
section
/-! DEFINITION. Operand forms and results of the sequencer: immediates, branch targets, effective addresses, and the integer
operations that sequencer instructions, element scalars and atomics share (R36 to R41, R172, R247). -/

namespace Sys2Proof.Machine

/-- SignExtend(imm16, 64). -/
def sext16 (i : BitVec 16) : Word := i.signExtend 64

/-- ZeroExtend(imm16, 64). -/
def zext16 (i : BitVec 16) : Word := i.setWidth 64

/-- R29: 4 times the sign-extended word offset. -/
def wordOffset {n : Nat} (o : BitVec n) : Word := (o.signExtend 64) <<< 2

/-- R43, R45: the effective address g[a] + SignExtend(imm16, 64). -/
def State.ea (s : State) (a : BitVec 5) (imm : BitVec 16) : Word := s.reg a + sext16 imm

/-- R36: the shift amount b[5:0]. -/
def amount (b : Word) : Nat := b.toNat % 64

def aluAdd (a b : Word) : Word := a + b
def aluSub (a b : Word) : Word := a - b
def aluAnd (a b : Word) : Word := a &&& b
def aluOr (a b : Word) : Word := a ||| b
def aluXor (a b : Word) : Word := a ^^^ b
def aluAndn (a b : Word) : Word := a &&& ~~~b
def aluShl (a b : Word) : Word := a <<< amount b
def aluShr (a b : Word) : Word := a >>> amount b
def aluSar (a b : Word) : Word := a.sshiftRight (amount b)
/-- R36: rotate left by b[5:0]. -/
def aluRot (a b : Word) : Word := a.rotateLeft (amount b)

/-- R37: bits [63:0] of the product. -/
def aluMul (a b : Word) : Word := a * b
/-- R37: bits [127:64] of the signed product. -/
def aluMulh (a b : Word) : Word := BitVec.ofInt 64 ((a.toInt * b.toInt) / 2 ^ 64)
/-- R37: bits [127:64] of the unsigned product. -/
def aluMulhu (a b : Word) : Word := BitVec.ofNat 64 (a.toNat * b.toNat / 2 ^ 64)
/-- R37: signed, truncated toward zero; all ones by zero; the one overflow wraps. (DEDUCED, safe: log 14.) -/
def aluDiv (a b : Word) : Word := if b = 0 then BitVec.allOnes 64 else BitVec.ofInt 64 (Int.tdiv a.toInt b.toInt)
/-- R37: unsigned; all ones by zero. -/
def aluDivu (a b : Word) : Word := if b = 0 then BitVec.allOnes 64 else BitVec.ofNat 64 (a.toNat / b.toNat)
/-- R37: the remainder of the truncated quotient; the dividend by zero. -/
def aluRem (a b : Word) : Word := if b = 0 then a else BitVec.ofInt 64 (Int.tmod a.toInt b.toInt)
/-- R37: unsigned; the dividend by zero. -/
def aluRemu (a b : Word) : Word := if b = 0 then a else BitVec.ofNat 64 (a.toNat % b.toNat)

/-- A comparison as 1 or 0. -/
def flag (c : Bool) : Word := if c then 1 else 0

def aluSlt (a b : Word) : Word := flag (a.slt b)
def aluSltu (a b : Word) : Word := flag (a.ult b)
def aluSeq (a b : Word) : Word := flag (a == b)
def aluMin (a b : Word) : Word := if b.slt a then b else a
def aluMax (a b : Word) : Word := if a.slt b then b else a
def aluMinu (a b : Word) : Word := if b.ult a then b else a
def aluMaxu (a b : Word) : Word := if a.ult b then b else a

/-- R39: the zero bits above the highest 1; 64 for 0. -/
def aluClz (a : Word) : Word := if a = 0 then 64 else BitVec.ofNat 64 (63 - Nat.log2 a.toNat)
/-- R39: the zero bits below the lowest 1; 64 for 0. -/
def aluCtz (a : Word) : Word := BitVec.ofNat 64 ((lowestBit a).getD 64)
/-- R39: the number of 1 bits. -/
def aluPopc (a : Word) : Word := BitVec.ofNat 64 ((List.range 64).countP (fun k => bit a k))

/-- R41 BFX: the field of width `w` from bit `o`; positions above bit 63 read as zero. -/
def bitExtract (v : Word) (o w : Nat) : Word := BitVec.ofNat 64 (v.toNat / 2 ^ o % 2 ^ w)

/-- R41 BFXS: sign-extended from bit w − 1 of the field; for w above 64 that bit reads 0. -/
def bitExtractSigned (v : Word) (o w : Nat) : Word :=
  if w = 0 then 0
  else if w ≤ 64 then BitVec.ofInt 64 (signed w (v.toNat / 2 ^ o))
  else bitExtract v o w

/-- R41 BFI: bits [w − 1 : 0] of `v` over bits [o + w − 1 : o] of `d`; positions above bit 63 are ignored. -/
def bitInsert (d v : Word) (o w : Nat) : Word :=
  if 64 ≤ o then d else setField d o (min w (64 - o)) v.toNat

/-- R247: the new value of an atomic of `n` bits by its AOP, all arithmetic modulo 2^n. AMOSWAP, ADD, AND, OR, XOR, MIN and MAX are AOP 0
to 6 (R252). -/
def atomicNew (op n old b : Nat) : Nat :=
  let o := old % 2 ^ n
  let c := b % 2 ^ n
  match op with
  | 0 => c
  | 1 => (o + c) % 2 ^ n
  | 2 => o &&& c
  | 3 => o ||| c
  | 4 => o ^^^ c
  | 5 => if signed n c < signed n o then c else o
  | 6 => if signed n o < signed n c then c else o
  | 7 => min o c
  | 8 => max o c
  | _ => o

/-- R42: a loaded value of `n` bytes, sign- or zero-extended. -/
def extend (n : Nat) (sx : Bool) (v : Nat) : Word :=
  if sx then BitVec.ofInt 64 (signed (8 * n) v) else BitVec.ofNat 64 (v % 2 ^ (8 * n))

end Sys2Proof.Machine
end

