-- ==== Sys2Proof/Machine/Phys.lean ====
section
/-! DEFINITION. The physical tiers: the address map (R212 to R214), keys and peers (R394 to R396, R412), and an access at its home
(R231, R406, R408, R450). An access here lies within one 128-byte line. -/

namespace Sys2Proof.Machine

/-! The address map -/

/-- R214 MEMCFG.PEER: the package's own peer number. -/
def ownPeer (s : State) : Nat := field s.dev.memcfg 32 10

/-- R214 MEMCFG.DLS: die-local GiB per stack. -/
def dls (s : State) : Nat := field s.dev.memcfg 0 6

/-- R212: the bytes of a stack's interleaved part. -/
def stackInterleaved (s : State) : Nat := 64000000000 - dls s * 2 ^ 30

/-- R212: the bytes of a stack's die-local part. -/
def stackLocal (s : State) : Nat := dls s * 2 ^ 30

/-- R212: a local address in 0b00 that is present as HBM. -/
def hbmPresent (s : State) (a : Nat) : Bool :=
  let sel := a / 2 ^ 40 % 16
  let off := a % 2 ^ 40
  decide (a < 2 ^ 44) &&
    (if sel = 0 then decide (off < 12 * stackInterleaved s)
     else decide (sel ≤ 6) && decide (off < 2 * stackLocal s))

/-- R213: the stack of an HBM line. -/
def stackOf (a : Nat) : Nat :=
  let sel := a / 2 ^ 40 % 16
  let n := a % 2 ^ 40 / 128
  if sel = 0 then n % 12 else 2 * (sel - 1) + n % 2

/-- R213: the line of its stack at which an HBM line lies: the interleaved part first, the die-local part above it. -/
def stackLine (s : State) (a : Nat) : Nat :=
  let n := a % 2 ^ 40 / 128
  if a / 2 ^ 40 % 16 = 0 then n / 12 else stackInterleaved s / 128 + n / 2

/-- R215: the first byte beyond a cluster's scratchpad. -/
def scrOf (s : State) (c : Nat) : Nat := scrBytes (s.seqOf c).cmnscr

/-- R325: the fault queue of a cluster: its first commons byte. -/
def faultQueueBase (s : State) (c : Nat) : Nat := field (s.seqOf c).fqbase 0 6 * 65536

/-- R325: a commons byte of the fault queue's region. -/
def inFaultQueue (s : State) (c byte n : Nat) : Bool :=
  decide (faultQueueBase s c < byte + n ∧ byte < faultQueueBase s c + 65536)

/-! Keys and peers -/

/-- R395: the key table's entry; entry 0 reads V = 1. -/
def keyEntry (s : State) (k : Nat) : Key :=
  if k = 0 then { keyReset with v := true } else Tab.getD s.dev.keys k keyReset

/-- R395: bit p of a MASK. -/
def maskBit (m : Vector Word 8) (p : Nat) : Bool := bit (vget m (p / 64) 0) (p % 64)

/-- R395: a partition entry. -/
def partitionOf (s : State) (i : Nat) : Masked := Tab.getD s.dev.partition i maskedReset

/-- R413: a group entry. -/
def groupOf (s : State) (i : Nat) : Masked := Tab.getD s.dev.group i maskedReset

/-- R394: a domain-table entry with its route: REACH is 1 for the own number. -/
def domainOf (s : State) (p : Nat) : Word :=
  let w := Tab.getD s.dev.domain p 0
  if p = ownPeer s then setBit w 61 true else w

/-- R396 rows 2 to 4: a peer that a packet can be sent to. -/
def peerReachable (s : State) (p : Nat) : Bool :=
  decide (p < 512) && bit (domainOf s p) 63 && !bit (domainOf s p) 62 && bit (domainOf s p) 61

/-- R396: the check of a line under KEY at a device-global address of peer `p`. -/
def checkPeer (s : State) (key p : Nat) : Option Nat :=
  if !(keyEntry s key).v then some cPERMISSION
  else if p = ownPeer s then none
  else
    let part := partitionOf s (keyEntry s key).pidx
    if !(bit part.w0 63 && maskBit part.mask p) then some cPERMISSION
    else if peerReachable s p then none
    else some cPEER

/-! Protected units (R450) -/

/-- An uncorrectable unit of `u` bytes is touched by the `n` bytes from `a`. -/
def touchesBad (err : List Nat) (u a n : Nat) : Bool := err.any (fun k => decide (u * k < a + n ∧ a < u * k + u))

/-- An uncorrectable unit is touched but not covered. -/
def partlyBad (err : List Nat) (u a n : Nat) : Bool :=
  err.any (fun k => decide (u * k < a + n ∧ a < u * k + u) && !decide (a ≤ u * k ∧ u * k + u ≤ a + n))

/-- R450: a write that covers a unit clears its error. -/
def coverErr (err : List Nat) (u a n : Nat) : List Nat := err.filter (fun k => !decide (a ≤ u * k ∧ u * k + u ≤ a + n))

/-! HBM under a key -/

/-- R406, R407: what a key writes a line with: its secret. -/
def keySid (s : State) (key : Nat) : Nat := (keyEntry s key).sid

/-- R407, R411: a key has its material: it is installed, or lines sent under it are still to perform. -/
def keyLive (s : State) (key : Nat) : Bool := (keyEntry s key).v || (keyEntry s key).revoking

/-- R408, R412, R450: the lines from `a` to `a + n - 1` pass their check under `key`. (DESIGN CHOICE, safe: log 75.) -/
def hbmOk (s : State) (key a n : Nat) : Bool :=
  keyLive s key && (List.range ((a + n - 1) / 128 - a / 128 + 1)).all (fun i =>
    !s.hbmErr.contains (a / 128 + i) && Tab.get? s.hbmKey (a / 128 + i) == some (keySid s key))

/-- HBM bytes read under a key; none where a line fails its check. -/
def readHbm (s : State) (key a n : Nat) : Option (List Byte) := if hbmOk s key a n then some (memRead s.hbm a n) else none

/-- R232: a store to a line performs once every commons copy of it has been dropped. -/
def dropCopies (s : State) (line : Nat) : State :=
  if s.clusters.any (fun c => c.2.copies.contains line) then
    { s with clusters := s.clusters.map (fun c => (c.1, { c.2 with copies := c.2.copies.filter (· != line) })) }
  else s

/-- R406, R450: bytes of one HBM line written under a key: a whole line needs no read, a part of one needs the line to pass its check. -/
def writeHbm (s : State) (key a : Nat) (bs : List Byte) : Option State :=
  if !keyLive s key then none
  else if a % 128 = 0 ∧ bs.length = 128 then
    some (dropCopies { s with hbm := memWrite s.hbm a bs, hbmKey := Tab.set s.hbmKey (a / 128) (keySid s key),
                              hbmErr := s.hbmErr.filter (· != a / 128) } (a / 128))
  else if hbmOk s key a bs.length then some (dropCopies { s with hbm := memWrite s.hbm a bs } (a / 128))
  else none

/-- Bytes of many lines, each line's part written by `writeHbm`; a part that is refused is left out (R450). (DEDUCED, unsafe: log 65.) -/
def writeHbmLines (fuel : Nat) (s : State) (key a : Nat) (bs : List Byte) : State :=
  match fuel with
  | 0 => s
  | f + 1 =>
    if bs.isEmpty then s
    else
      let n := min bs.length (128 - a % 128)
      writeHbmLines f ((writeHbm s key a (bs.take n)).getD s) key (a + n) (bs.drop n)

/-! Pools -/

/-- R229: the physical element and context slot that hold a virtual element; none while its plot is saved. -/
def holderOf (s : State) (p vp el : Nat) : Option (Nat × Nat) :=
  match s.placeOf p with
  | some pl => (pl.map.getD vp none).map (fun m => (m.1 * 4 + el, m.2))
  | none => none

/-! The host and guest ports (R234, R252) -/

/-- The port through which a location outside the package's memories is reached: the host's (0) or the guest's (1). -/
def outPort : Loc → Option Nat
  | .host _ => some 0
  | .guest _ => some 1
  | _ => none

/-- R234: a port accepts a store, which performs later; `waits` says that its issuer waits for that. -/
def postStore (s : State) (o : Owner) (frame : Option (Nat × Nat × Nat)) (waits : Bool) (l : Loc) (bs : List Byte) : State :=
  { s with nextRid := s.nextRid + 1
           posted := s.posted ++ [{ id := s.nextRid, owner := o, frame := frame, waits := waits, loc := l, bytes := bs }] }

/-- An accepted store performs in the memory behind its port. -/
def performPosted (s : State) (w : Posted) : State :=
  match w.loc with
  | .host a => { s with hostMem := memWrite s.hostMem a w.bytes }
  | .guest a => { s with guestMem := memWrite s.guestMem a w.bytes }
  | _ => s

/-- An entry of an element's port by its number. -/
def State.entry? (s : State) (e k : Nat) : Option MemEntry := (s.elemOf e).port.find? (fun m => m.id == k)

/-- Replace an entry. -/
def State.setEntry (s : State) (e : Nat) (m : MemEntry) : State :=
  s.setElem e { s.elemOf e with port := (s.elemOf e).port.map (fun v => if v.id = m.id then m else v) }

/-- An entry leaves the port. -/
def State.dropEntry (s : State) (e k : Nat) : State :=
  s.setElem e { s.elemOf e with port := (s.elemOf e).port.filter (fun v => v.id != k) }

/-- Answers of other packages, and the host's or guest's report of a store (R234), that an entry waits for. -/
def awaited (s : State) (e k : Nat) : Bool :=
  s.remotes.any (fun r => r.owner == .entry e k) || s.posted.any (fun w => w.owner == .entry e k && w.waits)

/-- R234: an entry whose every event has performed stands as performed, or waits for what is still awaited. -/
def settleEntry (s : State) (e k : Nat) : State :=
  match s.entry? e k with
  | some m =>
    if m.st == .sent && m.todo.isEmpty then s.setEntry e { m with st := if awaited s e k then .away else .performed }
    else if m.st == .away && !awaited s e k then s.setEntry e { m with st := .performed }
    else s
  | none => s

/-- R234: an accepted store, which its port has let go, performs, and its entry hears of it. -/
def postedPerforms (s : State) (w : Posted) : State :=
  match w.owner with
  | .entry e n => settleEntry (performPosted s w) e n
  | _ => performPosted s w

/-- R234: a port forwards in acceptance order: what follows finds every store accepted before it performed. -/
def drainPort (s : State) (l : Loc) : State :=
  let mine := s.posted.filter (fun w => outPort w.loc == outPort l)
  if (outPort l).isNone || mine.isEmpty then s else mine.foldl postedPerforms { s with posted := s.posted.filter (fun w => outPort w.loc != outPort l) }

/-! An access at its home -/

/-- The bytes of a location; none where the read finds an uncorrectable unit. A location of another package or a device register is
not read here. -/
def readLoc (s : State) (key : Nat) (l : Loc) (n : Nat) : Option (List Byte) :=
  match l with
  | .hbm a => readHbm s key a n
  | .commons c b | .ring c b =>
    if touchesBad (s.clusterOf c).comErr 8 b n then none else some (memRead (s.clusterOf c).com b n)
  | .pool p vp el b =>
    match holderOf s p vp el with
    | some (e, x) => if touchesBad (s.ctxOf e x).poolErr 8 b n then none else some (memRead (s.ctxOf e x).pool b n)
    | none => none
  | .host a => some (memRead (drainPort s l).hostMem a n)
  | .guest a => some (memRead (drainPort s l).guestMem a n)
  | .peer _ _ => none
  | .devreg _ => none

/-- A write of a location; none where R450 refuses it. -/
def writeLoc (s : State) (key : Nat) (l : Loc) (bs : List Byte) : Option State :=
  match l with
  | .hbm a => writeHbm s key a bs
  | .commons c b | .ring c b =>
    if partlyBad (s.clusterOf c).comErr 8 b bs.length then none
    else some (s.updCluster c (fun k => { k with com := memWrite k.com b bs, comErr := coverErr k.comErr 8 b bs.length }))
  | .pool p vp el b =>
    match holderOf s p vp el with
    | some (e, x) =>
      if partlyBad (s.ctxOf e x).poolErr 8 b bs.length then none
      else some (s.updCtx e x (fun c => { c with pool := memWrite c.pool b bs, poolErr := coverErr c.poolErr 8 b bs.length }))
    | none => none
  | .host a =>
    let s1 := drainPort s l
    some { s1 with hostMem := memWrite s1.hostMem a bs }
  | .guest a =>
    let s1 := drainPort s l
    some { s1 with guestMem := memWrite s1.guestMem a bs }
  | .peer _ _ => none
  | .devreg _ => none

/-! A write of scattered bytes of one line (R245, R406, R450) -/

/-- Some unit of 8 bytes in error is touched by the bytes at the given offsets from `b`, and not covered by them. -/
def unitsRefuse (err : List Nat) (b : Nat) (offs : List Nat) : Bool :=
  err.any (fun k => offs.any (fun o => (b + o) / 8 == k) && !(List.range 8).all (fun i => offs.any (fun o => b + o == 8 * k + i)))

/-- R450: the home refuses a write of the bytes at the given offsets of the line that starts at `l`. -/
def lineRefuses (s : State) (key : Nat) (l : Loc) (offs : List Nat) : Bool :=
  !offs.isEmpty && match l with
    | .hbm a => !keyLive s key || !((List.range 128).all offs.contains || hbmOk s key a 128)
    | .commons c b | .ring c b => unitsRefuse (s.clusterOf c).comErr b offs
    | .pool p vp el b =>
      match holderOf s p vp el with
      | some (e, x) => unitsRefuse (s.ctxOf e x).poolErr b offs
      | none => true
    | _ => false

/-- Bytes at offsets from an address, written in order. -/
def memPut (m : Memory) (b : Nat) (ws : List (Nat × Byte)) : Memory := ws.foldl (fun m w => memSet m (b + w.1) w.2) m

/-- The units of 8 bytes in error that stay so after a write at the given offsets from `b`. -/
def coverUnits (err : List Nat) (b : Nat) (offs : List Nat) : List Nat :=
  err.filter (fun k => !(List.range 8).all (fun i => offs.any (fun o => b + o == 8 * k + i)))

/-- The bytes that a write, not refused, puts at offsets of the line that starts at `l`, in order; `offs` are the offsets that the whole write of the line
covers, so that a fresh line passes its check. -/
def putLine (s : State) (key : Nat) (l : Loc) (offs : List Nat) (ws : List (Nat × Byte)) : State :=
  match l with
  | .hbm a =>
    let s1 := { s with hbm := memPut s.hbm a ws }
    dropCopies (if (List.range 128).all offs.contains then
        { s1 with hbmKey := Tab.set s1.hbmKey (a / 128) (keySid s key), hbmErr := s1.hbmErr.filter (· != a / 128) } else s1) (a / 128)
  | .commons c b | .ring c b =>
    s.updCluster c (fun k => { k with com := memPut k.com b ws, comErr := coverUnits k.comErr b offs })
  | .pool p vp el b =>
    match holderOf s p vp el with
    | some (e, x) => s.updCtx e x (fun c => { c with pool := memPut c.pool b ws, poolErr := coverUnits c.poolErr b offs })
    | none => s
  | _ => s

/-- R447: an uncorrectable read of a location counts at its block. (DEDUCED, unsafe: log 126.) -/
def countBad (s : State) (l : Loc) : State :=
  match l with
  | .hbm a => s.count (0x0068 + 8 * stackOf a) 1
  | .commons c _ | .ring c _ => s.count (0x1010 + 32 * c) 1
  | .pool p vp el _ =>
    match holderOf s p vp el with
    | some (e, _) => s.count (0x1010 + 32 * clusterOfElem e) 1
    | none => s
  | _ => s

/-! Dies and bridges (R391, R392) -/

/-- R391: the pairs of dies that the seven bridges join, in order. -/
def bridgePairs : List (Nat × Nat) := [(0, 1), (1, 2), (3, 4), (4, 5), (0, 3), (1, 4), (2, 5)]

/-- R391: the row and the column of a die in the 2 × 3 arrangement. -/
def dieRow (d : Nat) : Nat := d / 3
def dieCol (d : Nat) : Nat := d % 3

/-- The dies from column `a` to column `b` of row `r`, the first left out. -/
def rowSteps (r a b : Nat) : List Nat :=
  if a ≤ b then (List.range (b - a)).map (fun i => 3 * r + a + 1 + i) else (List.range (a - b)).map (fun i => 3 * r + a - 1 - i)

/-- R391: the dies that a packet passes after die `a` on its way to die `b`: along the column first, then along the row. -/
def packetDies (a b : Nat) : List Nat :=
  (if dieRow a = dieRow b then [] else [3 * dieRow b + dieCol a]) ++ rowSteps (dieRow b) (dieCol a) (dieCol b)

/-- R391: the bridges that a packet crosses from die `a` to die `b`. -/
def packetBridges (a b : Nat) : List Nat :=
  let ds := packetDies a b
  (List.zip (a :: ds) ds).filterMap (fun p => bridgePairs.findIdx? (fun q => q == p || q == (p.2, p.1)))

/-- R391: the die of a Krydeoft port. -/
def portDie (n : Nat) : Nat := n / 4

/-- R447: the block of the counter at an offset of the counters page: the host port (0), the HBM stacks (1 to 12), the bridges (13 to 19), the Krydeoft ports (20 to 43), the
Ethernet ports (44 to 47) and the clusters (from 48). -/
def blockOf (off : Nat) : Nat :=
  if off < 0x0008 then 0
  else if off < 0x0068 then 1 + (off - 0x0008) / 8
  else if off < 0x00C8 then 1 + (off - 0x0068) / 8
  else if off < 0x0100 then 13 + (off - 0x00C8) / 8
  else if off < 0x0138 then 13 + (off - 0x0100) / 8
  else if off < 0x0200 then 13 + (off - 0x0138) / 8
  else if off < 0x0300 then 20 + (off - 0x0200) / 8
  else if off < 0x0400 then 20 + (off - 0x0300) / 8
  else if off < 0x1000 then 44 + (off - 0x0400) / 32
  else 48 + (off - 0x1000) / 32

/-- The die of a block: that of its stack, port or cluster, the first of a bridge's two dies, die 0 for the host and Ethernet ports. (DESIGN CHOICE, unsafe: log 111.) -/
def blockDie (b : Nat) : Nat :=
  if 48 ≤ b then min ((b - 48) / 96) 5
  else if 20 ≤ b ∧ b < 44 then portDie (b - 20)
  else if 13 ≤ b ∧ b < 20 then (bridgePairs.getD (b - 13) (0, 0)).1
  else if 1 ≤ b ∧ b < 13 then (b - 1) / 2
  else 0

/-- R231, R439: the die of the block that owns the register at an offset: the counters' blocks, the clusters' windows, the Krydeoft ports, the guest engine socket on die 5, and die 0
for package control, the queues and the tables. (DESIGN CHOICE, unsafe: log 111.) -/
def regDie (o : Nat) : Nat :=
  if 0x10000000 ≤ o then min ((o - 0x10000000) / 0x80000 / 96) 5
  else if 0x430000 ≤ o ∧ o < 0x440000 then 5
  else if 0x420000 ≤ o ∧ o < 0x420000 + 8 * 24 then portDie ((o - 0x420000) / 8)
  else if 0x10000 ≤ o ∧ o < 0x20000 then blockDie (blockOf ((o - 0x10000) % 0x8000))
  else 0

/-- The die at which a location is reached: that of its home, or of the port towards it (R231, R391); die 0 for the host port. (DESIGN CHOICE, unsafe: log 111.) -/
def homeDie (s : State) (l : Loc) : Nat :=
  match l with
  | .hbm a => stackOf a / 2
  | .commons c _ | .ring c _ => c / 96
  | .pool p vp el _ => match holderOf s p vp el with
    | some (e, _) => clusterOfElem e / 96
    | none => 0
  | .peer p _ => portDie (field (domainOf s p) 53 5)
  | .guest _ => 5
  | .host _ => 0
  | .devreg o => regDie o

/-- R392: the data of an access between two dies has been lost on a bridge that it crosses. -/
def beatLost (s : State) (o : BeatOf) (a b : Nat) : Bool :=
  s.retries.any (fun r => r.2.1 == o && decide (4 < r.2.2) && (packetBridges a b).contains r.1)

/-- The beats of something are past. -/
def beatsPast (s : State) (o : BeatOf) : State :=
  if s.retries.any (fun r => r.2.1 == o) then { s with retries := s.retries.filter (fun r => r.2.1 != o) } else s

/-- The walks made for an access serve no other. -/
def walksPast (s : State) (o : Owner) : State :=
  if s.walks.any (fun w => w.who == o) then { s with walks := s.walks.filter (fun w => w.who != o) } else s

/-! Locations -/

/-- A location `n` bytes back. -/
def Loc.back (l : Loc) (n : Nat) : Loc :=
  match l with
  | .hbm a => .hbm (a - n)
  | .commons c b => .commons c (b - n)
  | .ring c b => .ring c (b - n)
  | .pool p vp el b => .pool p vp el (b - n)
  | .peer p a => .peer p (a - n)
  | .host a => .host (a - n)
  | .guest a => .guest (a - n)
  | .devreg o => .devreg (o - n)

/-- A location `n` bytes on. -/
def Loc.fwd (l : Loc) (n : Nat) : Loc :=
  match l with
  | .hbm a => .hbm (a + n)
  | .commons c b => .commons c (b + n)
  | .ring c b => .ring c (b + n)
  | .pool p vp el b => .pool p vp el (b + n)
  | .peer p a => .peer p (a + n)
  | .host a => .host (a + n)
  | .guest a => .guest (a + n)
  | .devreg o => .devreg (o + n)

/-- The byte number within its line of a location. -/
def Loc.inLine : Loc → Nat
  | .hbm a => a % 128
  | .commons _ b => b % 128
  | .ring _ b => b % 128
  | .pool _ _ _ b => b % 128
  | .peer _ a => a % 128
  | .host a => a % 128
  | .guest a => a % 128
  | .devreg o => o % 128

/-- R353: a location at which a write cannot be undone. -/
def outside : Loc → Bool
  | .host _ | .guest _ | .peer _ _ | .devreg _ => true
  | _ => false

/-- The line of a location at its home; a ring's lines are commons lines. -/
def homeLine (l : Loc) : Loc :=
  match l.back l.inLine with
  | .ring c b => .commons c b
  | x => x

/-! Lines that are held (R358, R366) -/

/-- R358 step 1, R366: a write that waits for room in a log holds a line at its home; `mine` picks out the access that asks. -/
def lineHeldBut (s : State) (mine : Holder → Bool) (l : Loc) : Bool :=
  s.places.any (fun p => p.2.frames.any (fun f => f.2.log.waiting.any (fun h => !mine h && h.line == some (homeLine l))))

/-- The same, for an access that holds none itself. -/
def lineHeld (s : State) (l : Loc) : Bool := lineHeldBut s (fun _ => false) l

/-! Recalls (R232, R427) -/

/-- The HBM line of a location. -/
def hbmLine : Loc → Option Nat
  | .hbm a => some (a / 128)
  | _ => none

/-- R358, R427: what waits for an HBM line that neither the guest holds a copy of nor a write holds any more is due. -/
def unstall (s : State) : State :=
  let free (line : Nat) : Bool := !s.guest.copies.contains line && !lineHeld s (.hbm (128 * line))
  { s with
    stalled := s.stalled.filter (fun w => !free w.1)
    agenda := s.agenda ++ (s.stalled.filter (fun w => free w.1)).map (·.2) }

/-- R427: the line of a location of which the guest holds a copy. -/
def guestCopy (s : State) (l : Loc) : Option Nat :=
  match hbmLine l with
  | some n => if s.guest.copies.contains n then some n else none
  | none => none

/-- R427: the home recalls the guest's copy of a line, once. -/
def recallLine (s : State) (line : Nat) : State :=
  if s.guest.recalls.contains line then s
  else s.updGuest (fun g => { g with recalls := g.recalls ++ [line], out := g.out ++ [.snpInv (line * 128)] })

/-- The first HBM line of a range of which the guest holds a copy. -/
def copyIn (s : State) (a n : Nat) : Option Nat :=
  if n = 0 then none
  else ((List.range ((a + n - 1) / 128 - a / 128 + 1)).map (fun i => a / 128 + i)).find? (fun l => s.guest.copies.contains l)

/-- R427: the first of several ranges of HBM of which the guest holds a line. -/
def copyAmong (s : State) (rs : List (Nat × Nat)) : Option Nat := rs.findSome? (fun r => copyIn s r.1 r.2)

end Sys2Proof.Machine
end

