-- ==== Sys2Proof/Machine/Dev.lean ====
section
/-! DEFINITION. The device registers (R439 to R447, R296, R394, R395, R402, R413, R420): what an offset reads, and what a write of it
does. A register is 8 bytes; a narrower access reaches its bytes. A write that starts something with a row of its own in the
opcode table makes that event due. -/

namespace Sys2Proof.Machine

def guestStCode : GuestSt → Nat
  | .down => 0
  | .training => 1
  | .active => 2
  | .fenced => 3

def guestCstCode : GuestCst → Nat
  | .run => 0
  | .pausing => 1
  | .paused => 2
  | .saving => 3
  | .restoring => 4

def linkStCode : LinkSt → Nat
  | .down => 0
  | .training => 1
  | .up => 2
  | .fencing => 3
  | .fenced => 4

def runStCode : RunState → Nat
  | .held => 0
  | .running => 1
  | .waiting => 2
  | .halted => 3

def qStCode : QState → Nat
  | .disabled => 0
  | .active => 1
  | .blocked => 2
  | .error => 3

/-- R402: a port's status register. -/
def kpst (k : KPort) : Word :=
  word (at' (linkStCode k.st) 61 + at' k.ena.toNat 60 + at' k.lanes 56 + at' k.capf 32 + k.retrn.toNat)

/-- R420: GPCTL. -/
def gpctl (g : Guest) : Word := word (at' g.ena.toNat 63 + at' g.pbexp 32 + at' g.fvec 16)

/-- R420: GPST. -/
def gpst (g : Guest) : Word := word (at' (guestStCode g.st) 61 + at' g.cause 56 + g.fences.toNat)

/-- R420: a guest context. -/
def guestCtxOf (s : State) (c : Nat) : GuestCtx := Tab.getD s.guest.ctxs c guestCtxReset

/-- R420: GCTXc. -/
def gctx (c : GuestCtx) : Word := word (at' c.v.toNat 63 + at' (guestCstCode c.cst) 60 + at' c.lres 56 + c.plid)

/-- A Krydeoft port. -/
def kportOf (s : State) (n : Nat) : KPort := Tab.getD s.kports n kportReset

/-- An Ethernet port. -/
def ethOf (s : State) (p : Nat) : EthPort := Tab.getD s.eth p ethReset

/-- R296: word `n` of a queue's descriptor. -/
def queueWord (q : Queue) (n : Nat) : Word :=
  match n with
  | 0 => word (at' (qStCode q.st) 61 + at' q.evec 16 + q.qprio)
  | 1 => word q.opmask
  | 2 => q.ptbase
  | 3 => word q.asid
  | 4 => q.ridx
  | 5 => q.widx
  | 6 => q.stalew
  | 7 => q.qbase
  | 8 => word (at' q.owner 32 + at' q.rights 16 + q.log2n)
  | _ =>
    if n < 17 then vget q.ranges (n - 9) 0
    else if n < 21 then vget q.cap (n - 17) 0
    else if n < 24 then 0
    else vget q.errec (n - 24) 0

/-- R395: a key-table entry as it reads. -/
def keyWord (k : Key) : Word := word (at' k.v.toNat 63 + at' k.pidx 48 + k.serial)

/-- R442: the sequencer window is open to the host while the sequencer is HELD or HALTED. -/
def windowOpen (q : Seq) : Bool := q.run == .held || q.run == .halted

/-- R442: a sequencer's window; none for an uncorrectable word of local memory. -/
def seqWindowRead (s : State) (c o : Nat) : Option Word :=
  let q := s.seqOf c
  if o = 0x7F000 then some (word (at' (runStCode q.run) 62))
  else if !windowOpen q then some 0
  else if o < 0x40000 then
    if q.memErr.contains (o / 8) then none else some (memWord q.mem o)
  else if o < 0x48000 then some ((crRead s c ((o - 0x40000) / 8)).getD 0)
  else if 0x7E000 ≤ o ∧ o < 0x7E100 then some (q.reg (BitVec.ofNat 5 ((o - 0x7E000) / 8)))
  else if o = 0x7E100 then some (if q.run == .held then 0 else q.pcv)
  else some 0

/-- R439: the 8-byte register at a multiple of 8; none where it cannot be read without error. Reserved offsets read as zero. (DEDUCED, unsafe: log 84.) -/
def regRead (s : State) (o : Nat) : Option Word :=
  let d := s.dev
  if d.boot = 2 ∧ o ≠ 0x8 then some 0
  else if 0x10000000 ≤ o then
    let c := (o - 0x10000000) / 0x80000
    if c < 576 then seqWindowRead s c ((o - 0x10000000) % 0x80000) else some 0
  else if o < 0x10000 then
    match o with
    | 0x00 => some Config.pkgId
    | 0x08 => some (word (at' d.boot 62 + d.goDone.toNat))
    | 0x10 => some d.domcfg
    | 0x18 => some d.hinva
    | 0x20 => some (setBit d.hinvc 63 d.hinvBusy)
    | 0x28 => some (word d.hdmkey)
    | 0x30 => some (word (at' d.snapSeq.toNat 32 + at' d.fcls 1))
    | 0x38 => some (word (at' d.pcap 48 + at' d.tinlet 32 + d.pmw))
    | 0x40 => some (word d.lpbase)
    | 0x48 => some (word d.lpsize)
    | 0x50 => some (word d.epbase)
    | 0x58 => some (word d.epsize)
    | _ =>
      if 0x100 ≤ o ∧ o < 0x200 then
        some (BitVec.ofNat 64 ((vget d.mreg ((o - 0x100) / 32) 0).toNat / 2 ^ (8 * (o % 32))))
      else if 0x2000 ≤ o ∧ o < 0x6000 then
        some (BitVec.ofNat 64 ((Tab.getD d.tenmap ((o - 0x2000) / 16) 0).toNat / 2 ^ (8 * (o % 16))))
      else some 0
  else if o < 0x18000 then some (Tab.getD d.counters (o - 0x10000) 0)
  else if o < 0x20000 then some (Tab.getD d.snap (o - 0x18000) 0)
  else if 0x100000 ≤ o ∧ o < 0x200000 then some (queueWord (s.queueOf ((o - 0x100000) / 256)) (o % 256 / 8))
  else if 0x300000 ≤ o ∧ o < 0x301000 then some (domainOf s ((o - 0x300000) / 8))
  else if 0x301000 ≤ o ∧ o < 0x301000 + 256 * 72 then
    let e := partitionOf s ((o - 0x301000) / 72)
    some (if (o - 0x301000) % 72 = 0 then e.w0 else vget e.mask ((o - 0x301000) % 72 / 8 - 1) 0)
  else if 0x310000 ≤ o ∧ o < 0x310000 + 4096 * 72 then
    let e := groupOf s ((o - 0x310000) / 72)
    some (if (o - 0x310000) % 72 = 0 then e.w0 else vget e.mask ((o - 0x310000) % 72 / 8 - 1) 0)
  else if 0x400000 ≤ o ∧ o < 0x410000 then some (keyWord (keyEntry s ((o - 0x400000) / 8)))
  else if 0x411000 ≤ o ∧ o < 0x412000 then some (wordAt d.response ((o - 0x411000) / 8))
  else if 0x412080 ≤ o ∧ o < 0x413000 then some (wordAt d.receipt ((o - 0x412080) / 8))
  else if 0x420000 ≤ o ∧ o < 0x420000 + 8 * 24 then some (kpst (kportOf s ((o - 0x420000) / 8)))
  else if o = 0x430000 then some (gpctl s.guest)
  else if o = 0x430008 then some (gpst s.guest)
  else if o = 0x430010 then some s.guest.cmd1
  else if 0x430800 ≤ o ∧ o < 0x431000 then some (gctx (guestCtxOf s ((o - 0x430800) / 8)))
  else if 0x440000 ≤ o ∧ o < 0x444000 then
    let p := ethOf s ((o - 0x440000) / 0x1000)
    match o % 0x1000 with
    | 0x000 => some (word (at' p.ena.toNat 63 + at' p.modes 61 + p.maxlen))
    | 0x010 => some (p.dst.extractLsb' 0 64)
    | 0x018 => some (p.dst.extractLsb' 64 64)
    | _ => some 0
  else some 0

/-- R439: the bytes that an access of `n` bytes at offset `o` reads. -/
def devRead (s : State) (o n : Nat) : Option Nat :=
  (regRead s (o / 8 * 8)).map (fun w => w.toNat / 2 ^ (8 * (o % 8)) % 2 ^ (8 * n))

/-- R296: a cfg field takes a write only while the queue is DISABLED. -/
def cfgMask (q : Queue) (m : Word) : Word := if q.st == .disabled then m else 0

/-- R296: a write of word `n` of a descriptor, `lane` the bits written. -/
def queueWrite (s : State) (q n : Nat) (v lane : Word) : State :=
  let old := s.queueOf q
  let w (m : Word) := maskWrite (queueWord old n) v (m &&& lane)
  match n with
  | 0 =>
    let nw := w 0x7FF0007
    let s1 := s.updQueue q (fun k => { k with evec := field nw 16 11, qprio := field nw 0 3 })
    match field (v &&& lane) 8 3 with
    | 1 => s1.due .queueEnable { q := q }
    | 2 => s1.due .queueDisable { q := q }
    | 3 => s1.due .queueReset { q := q }
    | 4 => s1.due .queueSeal { q := q }
    | _ => s1
  | 1 => s.updQueue q (fun k => { k with opmask := field (w (cfgMask old 0x7FF)) 0 11 })
  | 2 => s.updQueue q (fun k => { k with ptbase := w (cfgMask old 0x07FFCFFFFFFFC000#64) })
  | 3 => s.updQueue q (fun k => { k with asid := field (w (cfgMask old 0xFFFF)) 0 16 })
  | 7 => s.updQueue q (fun k => { k with qbase := w (cfgMask old 0xFFFFFFFFFFFFFFC0#64) })
  | 8 =>
    let nw := w (cfgMask old 0xFFFFFFFF0001001F#64)
    s.updQueue q (fun k => { k with owner := field nw 32 32, rights := field nw 16 16, log2n := field nw 0 5 })
  | _ =>
    if 9 ≤ n ∧ n < 17 then
      s.updQueue q (fun k => { k with ranges := vset k.ranges (n - 9) (w (cfgMask old 0x803F0FFFFFFFFFFF#64)) })
    else s

/-- R442: a host or device write of a sequencer's window. The mailboxes take it in every state (R23). -/
def seqWindowWrite (s : State) (c o : Nat) (v lane : Word) : State :=
  let q := s.seqOf c
  if o = 0x7F000 then
    match field (v &&& lane) 0 2 with
    | 1 => s.due .sequencerRelease { c := c }
    | 2 => s.due .sequencerStop { c := c }
    | _ => s
  else if 0x40000 + 8 * 0x50 ≤ o ∧ o < 0x40000 + 8 * 0x54 then
    let m := (o - 0x40000) / 8 - 0x50
    s.due .mailboxWrite { c := c, k := m, v := maskWrite (vget q.mbox m 0) v lane }
  else if !windowOpen q then s
  else if o < 0x40000 then
    if q.memErr.contains (o / 8) && lane != BitVec.allOnes 64 then s
    else
      s.setSeq c { q with mem := memWrite q.mem o (leBytes 8 (maskWrite (memWord q.mem o) v lane).toNat),
                          memErr := q.memErr.filter (· != o / 8) }
  else if o = 0x40000 + 8 * 0x100 then s.due .cmnscrWrite { c := c, v := maskWrite q.cmnscr v lane }
  else if o < 0x48000 then
    crWrite s c ((o - 0x40000) / 8) (maskWrite ((crRead s c ((o - 0x40000) / 8)).getD 0) v lane)
  else s

/-- R395, R413: a write of a nine-word entry. -/
def maskedWrite (e : Masked) (k : Nat) (m v lane : Word) : Masked :=
  if k = 0 then { e with w0 := maskWrite e.w0 v (m &&& lane) }
  else { e with mask := vset e.mask (k - 1) (maskWrite (vget e.mask (k - 1) 0) v lane) }

/-- R439: a write of the bits `lane` of the register at a multiple of 8, field by field (R8, R9). -/
def regWrite (s : State) (o : Nat) (v lane : Word) : State :=
  let d := s.dev
  let old := (regRead s o).getD 0
  let w (m : Word) := maskWrite old v (m &&& lane)
  let hot := v &&& lane
  if d.boot = 2 ∧ o ≠ 0x8 then s
  else if 0x10000000 ≤ o then
    let c := (o - 0x10000000) / 0x80000
    if c < 576 then seqWindowWrite s c ((o - 0x10000000) % 0x80000) v lane else s
  else if o < 0x10000 then
    match o with
    | 0x08 => if bit hot 0 then s.due .go else s
    | 0x10 => if d.goDone then s else s.updDev (fun d => { d with domcfg := w 0x3FF0000003F })
    | 0x18 => s.updDev (fun d => { d with hinva := w 0x3FFFFFFFFFFFFFF })
    | 0x20 =>
      if d.hinvBusy then s
      else
        match field (w 0x3FFFF) 16 2 with
        | 0 => s.due .hostInvalidatePage { v := w 0x3FFFF }
        | 1 => s.due .hostInvalidateAsid { v := w 0x3FFFF }
        | 2 => s.due .hostInvalidateAll { v := w 0x3FFFF }
        | _ => s.updDev (fun d => { d with hinvc := w 0x3FFFF })
    | 0x28 => s.updDev (fun d => { d with hdmkey := field (w 0x1FFF) 0 13 })
    | 0x30 =>
      let s1 := s.updDev (fun d => { d with fcls := field (w 0xFFFFFFFE) 1 31 })
      if bit hot 0 then s1.due .snapshotTrigger else s1
    | 0x38 => s.updDev (fun d => { d with pcap := min (field (w 0xFFFF000000000000#64) 48 16) 3600 })
    | 0x40 => s.updDev (fun d => { d with lpbase := field (w 0x3FFFFFFFFFFF#64) 0 46 })
    | 0x48 => s.updDev (fun d => { d with lpsize := field (w 0x3FFFFFFFFFFF#64) 0 46 })
    | 0x50 => s.updDev (fun d => { d with epbase := field (w 0x3FFFFFFFFFFF#64) 0 46 })
    | 0x58 => s.updDev (fun d => { d with epsize := field (w 0x3FFFFFFFFFFF#64) 0 46 })
    | _ =>
      if 0x2000 ≤ o ∧ o < 0x6000 then
        let i := (o - 0x2000) / 16
        let t := Tab.getD d.tenmap i 0
        let t' : BitVec 128 :=
          if o % 16 = 0 then t.extractLsb' 64 64 ++ w 0xFFFFFFFF
          else w 0x800FFFFFFFFF0000#64 ++ t.extractLsb' 0 64
        s.updDev (fun d => { d with tenmap := Tab.set d.tenmap i t' })
      else s
  else if 0x100000 ≤ o ∧ o < 0x200000 then queueWrite s ((o - 0x100000) / 256) (o % 256 / 8) v lane
  else if 0x300000 ≤ o ∧ o < 0x301000 then
    let i := (o - 0x300000) / 8
    let nw := maskWrite (Tab.getD d.domain i 0) v (0xC000000000000000#64 &&& lane)
    s.updDev (fun d => { d with domain := Tab.set d.domain i nw })
  else if 0x301000 ≤ o ∧ o < 0x301000 + 256 * 72 then
    let i := (o - 0x301000) / 72
    let e := maskedWrite (partitionOf s i) ((o - 0x301000) % 72 / 8) 0x80000000FFFFFFFF#64 v lane
    s.updDev (fun d => { d with partition := Tab.set d.partition i e })
  else if 0x310000 ≤ o ∧ o < 0x310000 + 4096 * 72 then
    let i := (o - 0x310000) / 72
    let e := maskedWrite (groupOf s i) ((o - 0x310000) % 72 / 8) 0x83FF00FF00000000#64 v lane
    s.updDev (fun d => { d with group := Tab.set d.group i e })
  else if 0x420000 ≤ o ∧ o < 0x420000 + 8 * 24 then
    let n := (o - 0x420000) / 8
    if bit lane 60 then s.due (if bit v 60 then .krydeoftPortEnable else .krydeoftPortDisable) { n := n } else s
  else if o = 0x430000 then
    let nw := w 0x8000001F07FF0000#64
    let pb := field nw 32 5
    let s1 := s.updGuest (fun g => { g with pbexp := if 10 ≤ pb ∧ pb ≤ 24 then pb else 16, fvec := field nw 16 11 })
    if bit lane 63 then s1.due (if bit v 63 then .guestPortEnable else .guestPortDisable) else s1
  else if o = 0x430010 then s.updGuest (fun g => { g with cmd1 := w 0xFFF03FFFFFFFF000 })
  else if o = 0x430018 then
    match field hot 60 4 with
    | 1 => s.due .guestPause { k := field hot 52 8 }
    | 2 => s.due .guestResume { k := field hot 52 8 }
    | 3 => s.due .guestSave { k := field hot 52 8 }
    | 4 => s.due .guestRestore { k := field hot 52 8 }
    | _ => s
  else if 0x430800 ≤ o ∧ o < 0x431000 then
    let c := (o - 0x430800) / 8
    let g := guestCtxOf s c
    if g.cst == .run then
      let nw := w 0x8000000000003FFF#64
      s.updGuest (fun k => { k with ctxs := Tab.set k.ctxs c { g with v := bit nw 63, plid := field nw 0 14 } })
    else s
  else if 0x440000 ≤ o ∧ o < 0x444000 then
    let p := (o - 0x440000) / 0x1000
    let e := ethOf s p
    let put (e' : EthPort) : State := { s with eth := Tab.set s.eth p e' }
    let r := o % 0x1000
    if r = 0 then
      let nw := w 0xE000000000003FFF#64
      put { e with ena := bit nw 63, modes := field nw 61 2, maxlen := field nw 0 14 }
    else if r = 0x10 then put { e with dst := e.dst.extractLsb' 64 64 ++ w (BitVec.allOnes 64) }
    else if r = 0x18 then put { e with dst := w (BitVec.allOnes 64) ++ e.dst.extractLsb' 0 64 }
    else if 0x100 ≤ r ∧ r < 0x300 then
      put { e with buf := vset e.buf ((r - 0x100) / 8) (maskWrite (vget e.buf ((r - 0x100) / 8) 0) v lane) }
    else if r = 0x300 then s.due .ethernetTransmit { p := p, k := field hot 0 10 }
    else s
  else s

/-- R439: a write of `n` bytes at offset `o`, within one register. -/
def devWrite (s : State) (o n v : Nat) : State :=
  regWrite s (o / 8 * 8) (word (at' (v % 2 ^ (8 * n)) (8 * (o % 8)))) (word (at' (2 ^ (8 * n) - 1) (8 * (o % 8))))

end Sys2Proof.Machine
end

