-- ==== Sys2Proof/Machine/Translate.lean ====
section
/-! DEFINITION. Translation (R210, R216 to R226): the page walk, the checks of a leaf and of its target, the cached leaves, and the
sequencer's own translation. -/

namespace Sys2Proof.Machine

/-- An access as translation sees it: its kind, its level (R211), whether a sequencer makes it, the placement it is made for, and who makes it, by whose
beats its data crosses bridges (R392) and for whom walks are made (R226); `home`: the peer to which R417 applies R396 in place of the leaf's; `plain`: no target of R253 row 4
is shut out. -/
structure Access where
  kind : AccKind
  task : Bool
  fromSeq : Bool
  plid : Option Nat
  who : Option BeatOf := none
  walker : Option Owner := none
  home : Option Nat := none
  plain : Bool := false
  deriving DecidableEq, Repr

/-! Fields of a page-table entry (R218) -/

def pteV (p : Word) : Bool := bit p 0
def pteKind (p : Word) : Nat := field p 1 2
def pteTarget (p : Word) : Nat := field p 3 4
def pteKey (p : Word) : Nat := field p 7 13
def pteFr (p : Word) : Nat := field p 26 30

/-- R216: the size of a page of a level. -/
def pageSize (lvl : Nat) : Nat := 2 ^ (14 + 11 * lvl)

/-- R219: the levels at which a target may have a leaf. -/
def levelAllowed (tgt lvl : Nat) : Bool :=
  match tgt with
  | 0 | 4 | 5 => decide (lvl ≤ 2)
  | 1 => decide (lvl ≤ 1)
  | 2 | 6 | 7 => decide (lvl = 0)
  | 3 => decide (lvl = 1 ∨ lvl = 2)
  | _ => false

/-- R219: the FR bits that must be zero are. -/
def frClear (tgt lvl fr : Nat) : Bool :=
  match tgt with
  | 2 => decide (fr / 2 ^ 21 = 0 ∧ fr / 32 % 4 = 0)
  | 3 => decide (fr / 2 ^ 19 % 2 = 0) && (decide (lvl ≠ 2) || decide (fr % 2 ^ 11 = 0))
  | 6 | 7 => true
  | _ => decide (fr % 2 ^ (11 * lvl) = 0)

/-- R220: the checks that a leaf entry found at a level must pass before any that depends on the access. -/
def leafValid (lvl : Nat) (p : Word) : Bool :=
  decide (lvl ≠ 3) && levelAllowed (pteTarget p) lvl && frClear (pteTarget p) lvl (pteFr p)
    && (decide (pteKey p = 0) == decide (pteTarget p = 7))
    && (!bit p 24 || pteTarget p == 6 || pteTarget p == 7)
    && !(bit p 24 && bit p 25)

/-- R220 ReadTable: an entry of a table in local HBM, under the root's TKEY, which must be installed (R412). -/
def readTable (s : State) (key a : Nat) : Except Nat Word :=
  if !hbmPresent s a || !(keyEntry s key).v || key == 0 then .error cTRANSLATION
  else
    match readHbm s key a 8 with
    | some bs => .ok (BitVec.ofNat 64 (leNat bs))
    | none => .error cINTEGRITY

/-- R220: the walk from the table `tbl` of level `lvl` down to a leaf. -/
def walkFrom (s : State) (key asid va : Nat) : Nat → Nat → Except Nat Leaf
  | lvl, tbl =>
    match readTable s key (tbl * 2 ^ 14 + 8 * (va / 2 ^ (14 + 11 * lvl) % 2 ^ 11)) with
    | .error c => .error c
    | .ok p =>
      if !pteV p || field p 56 8 != 0 then .error cTRANSLATION
      else if pteKind p = 1 then
        match lvl with
        | 0 => .error cTRANSLATION
        | l + 1 => if field p 3 23 != 0 then .error cTRANSLATION else walkFrom s key asid va l (pteFr p)
      else if pteKind p = 2 && leafValid lvl p then
        .ok { asid := asid, level := lvl, vpage := va / pageSize lvl, pte := p }
      else .error cTRANSLATION

/-- R220: the walk of a root. -/
def walk (s : State) (root : Word × Nat) (va : Nat) : Except Nat Leaf :=
  walkFrom s (field root.1 46 13) root.2 va 3 (field root.1 14 30)

/-- R220: the access rights of a leaf. -/
def leafAllows (p : Word) (a : Access) : Bool :=
  (!a.task || bit p 23) &&
    match a.kind with
    | .read => bit p 20
    | .write => bit p 21
    | .atomic => bit p 20 && bit p 21 && bit p 22

/-- R212: a local address in 0b01: die, cluster and byte; none where no commons is present. -/
def commonsAt (l : Nat) : Option (Nat × Nat) :=
  if l / 2 ^ 32 % 2 ^ 12 = 0 ∧ l / 2 ^ 29 % 8 < 6 ∧ l / 2 ^ 22 % 128 < 96 then
    some (l / 2 ^ 29 % 8 * 96 + l / 2 ^ 22 % 128, l % 2 ^ 22)
  else none

/-- R219: where the address of a leaf leads; none for a commons that is not present. -/
def targetOf (s : State) (pl : Option Nat) (lf : Leaf) (va : Nat) : Option Loc :=
  let fr := pteFr lf.pte
  let off := va % pageSize lf.level
  let l := fr * 2 ^ 14 + off
  match pteTarget lf.pte with
  | 0 => some (.hbm l)
  | 1 => (commonsAt l).map (fun cb => .commons cb.1 cb.2)
  | 2 => some (.pool (pl.getD 0) (fr / 2 ^ 9 % 2 ^ 12) (fr / 2 ^ 7 % 4) (fr % 32 * 16384 + off))
  | 3 =>
    let a := fr % 2 ^ 19 * 2 ^ 25 + off
    if fr / 2 ^ 20 = ownPeer s then some (.hbm a) else some (.peer (fr / 2 ^ 20) a)
  | 4 => some (.host l)
  | 5 => some (.guest l)
  | 6 => (commonsAt l).map (fun cb => .ring cb.1 cb.2)
  | 7 => some (.devreg l)
  | _ => none

/-! A context's holding (R81, R82) -/

def pMSG (p : Word) : Nat := field p 0 8
def pTSG (p : Word) : Nat := field p 8 8
def pACG (p : Word) : Nat := field p 16 8
def pWBG (p : Word) : Nat := field p 24 8
def pSPG (p : Word) : Nat := field p 32 8

/-- R81: all granules of a holding. -/
def pSum (p : Word) : Nat := pMSG p + pTSG p + pACG p + pWBG p + pSPG p

/-- The partition word of a virtual element of a placement. -/
def partOf (pl : Placement) (vp el : Nat) : Word := pl.parts.getD (4 * vp + el) 0

/-- R221 rows 2 and 3 for a POOL target: the granules an access may reach. -/
def checkPool (s : State) (a : Access) (vp el byte : Nat) : Option Nat :=
  match a.plid.bind s.placeOf with
  | none => some cPERMISSION
  | some pl =>
    let w := partOf pl vp el
    let g := byte / 4096
    let tile := decide (pMSG w ≤ g ∧ g < pMSG w + pTSG w)
    let wb := decide (pMSG w + pTSG w + pACG w ≤ g ∧ g < pMSG w + pTSG w + pACG w + pWBG w)
    let standing := decide (g - pMSG w < pl.tsinit.getD (4 * vp + el) 0)
    if a.fromSeq || a.kind == .atomic then some cPERMISSION
    else if pl.n ≤ vp || decide (pSum w ≤ g) then some cBOUNDS
    else if wb || (tile && (a.kind == .read || standing)) then none
    else some cPERMISSION

/-- R221, R309, R325, R396, R427 CheckTarget, in its order, for `n` bytes at a target. -/
def checkTarget (s : State) (a : Access) (key n : Nat) (l : Loc) : Option Nat :=
  let peer := match a.home, l with
    | some h, _ => checkPeer s key h
    | none, .peer p _ => checkPeer s key p
    | none, _ => if (keyEntry s key).v then none else some cPERMISSION
  match peer with
  | some c => some c
  | none =>
    match l with
    | .hbm x => if hbmPresent s x then none else some cBOUNDS
    | .commons c b =>
      if inFaultQueue s c b n && (a.task || a.kind != .read || !a.fromSeq) then some cPERMISSION
      else if b + n ≤ scrOf s c then none else some cBOUNDS
    | .ring c b =>
      if a.kind != .read || inFaultQueue s c b n then some cPERMISSION
      else if b + n ≤ scrOf s c then none else some cBOUNDS
    | .pool _ vp el b => checkPool s a vp el b
    | .peer _ _ => none
    | .host _ => none
    | .guest _ => if s.guest.st == .active then none else some cGUEST
    | .devreg o => if o % 2 ^ 44 / 2 ^ 30 = 0 then none else some cBOUNDS

/-- R220, R221: `n` bytes at `va`, within one line, through a leaf. -/
def throughLeaf (s : State) (a : Access) (lf : Leaf) (va n : Nat) : Except Nat Line :=
  if !leafAllows lf.pte a then .error cPERMISSION
  else
    match targetOf s a.plid lf va with
    | none => if (keyEntry s (pteKey lf.pte)).v then .error cBOUNDS else .error cPERMISSION
    | some l =>
      match checkTarget s a (pteKey lf.pte) n l with
      | some c => .error c
      | none => .ok { va := va, n := n, loc := l, key := pteKey lf.pte, irrev := bit lf.pte 25, nolog := bit lf.pte 24, lvl := lf.level }

/-! Cached leaves (R222, R225, R226) -/

/-- A leaf translates an address of an address space. -/
def Leaf.covers (l : Leaf) (asid va : Nat) : Bool := l.asid == asid && va / pageSize l.level == l.vpage

/-- The leaf for an address among an agent's own entry, its cluster's TLB and its die's. -/
def cachedLeaf (s : State) (own : Option Leaf) (c asid va : Nat) : Option Leaf :=
  (own.toList ++ (s.clusterOf c).tlb ++ Tab.getD s.dieTlb (c / 96) []).find? (fun l => l.covers asid va)

/-- R226: a leaf enters a TLB; the oldest leaf leaves a full one. (DEDUCED, unsafe: log 109.) -/
def tlbInsert (cap : Nat) (t : List Leaf) (l : Leaf) : List Leaf :=
  if t.contains l then t else (l :: t).take cap

/-- A leaf that a walk or a lookup found is kept in the cluster's and the die's TLB. The Reeve, which is in no cluster, keeps none. -/
def keepLeaf (s : State) (c : Nat) (l : Leaf) : State :=
  if !okC c then s
  else
  let s1 := s.updCluster c (fun k => { k with tlb := tlbInsert 64 k.tlb l })
  { s1 with dieTlb := Tab.set s1.dieTlb (c / 96) (tlbInsert 8192 (Tab.getD s1.dieTlb (c / 96) []) l) }

/-- The translation root of a placement (R223), if it has one. -/
def rootOf (s : State) (p : Nat) : Option (Word × Nat) := (s.placeOf p).bind (·.root)

/-! Walks (R220, R226) -/

/-- A walk that has ended gives the leaf or the fault of an address. -/
def Walk.gives (w : Walk) (who : Owner) (root : Word × Nat) (va : Nat) : Option (Except Nat Leaf) :=
  if w.who != who || w.asid != root.2 || w.key != field root.1 46 13 then none
  else
    match w.res with
    | some (.leaf l) => if l.covers root.2 va then some (.ok l) else none
    | some (.fault c) => if w.va / 2 ^ 14 = va / 2 ^ 14 then some (.error c) else none
    | none => none

/-- The end of the walk made for an address of an access, where there is one. -/
def walkedLeaf (s : State) (who : Option Owner) (root : Word × Nat) (va : Nat) : Option (Except Nat Leaf) :=
  who.bind (fun o => s.walks.findSome? (fun w => w.gives o root va))

/-- The first address of an access, of those that no cached leaf translates, that still needs a walk. -/
def walkNeeded (s : State) (a : Access) (own : Option Leaf) (c : Nat) (root : Word × Nat) (ps : List (Nat × Nat)) : Option Nat :=
  if a.walker.isNone || ps.any (fun p => decide (2 ^ 58 ≤ p.1)) then none
  else (ps.find? (fun p => (cachedLeaf s own c root.2 p.1).isNone && (walkedLeaf s a.walker root p.1).isNone)).map (·.1)

/-- R226: walks under way in a cluster. -/
def walksIn (s : State) (c : Nat) : Nat := s.walks.countP (fun w => w.cl == c && w.res.isNone)

/-- R226: a walk begins for an access; one at a time for each, and 64 in a cluster. -/
def askWalk (s : State) (a : Access) (c : Nat) (root : Word × Nat) (va : Nat) : State :=
  match a.walker with
  | none => s
  | some o =>
    if s.walks.any (fun w => w.who == o && w.res.isNone) || (okC c && decide (64 ≤ walksIn s c)) then s
    else { s with walks := s.walks ++ [{
      who := o, cl := c, key := field root.1 46 13, asid := root.2, va := va, top := field root.1 14 30, lvl := 3, tbl := field root.1 14 30, res := none }] }

/-- R447: a table read of a walk that cannot be corrected is counted. -/
def countTable (s : State) (a : Nat) (r : Except Nat Word) : State :=
  match r with
  | .error c => if c = cINTEGRITY then countBad s (.hbm a) else s
  | .ok _ => s

/-- R220, R255: walk number `n` reads its next table entry. -/
def walkStep (s : State) (n : Nat) : State :=
  match s.walks[n]? with
  | none => s
  | some w =>
    if w.res.isSome then s
    else
      let at' := w.tbl * 2 ^ 14 + 8 * (w.va / 2 ^ (14 + 11 * w.lvl) % 2 ^ 11)
      let r := readTable s w.key at'
      let w1 : Walk := match r with
        | .error c => { w with res := some (.fault c) }
        | .ok p =>
          if !pteV p || field p 56 8 != 0 then { w with res := some (.fault cTRANSLATION) }
          else if pteKind p = 1 then
            (if w.lvl = 0 || field p 3 23 != 0 then { w with res := some (.fault cTRANSLATION) } else { w with lvl := w.lvl - 1, tbl := pteFr p })
          else if pteKind p = 2 && leafValid w.lvl p then
            { w with res := some (.leaf { asid := w.asid, level := w.lvl, vpage := w.va / pageSize w.lvl, pte := p }) }
          else { w with res := some (.fault cTRANSLATION) }
      countTable { s with walks := s.walks.set n w1 } at' r

/-- One line translated for an agent of cluster `c`: through a cached leaf, else by a walk. With a translation comes the leaf it used. -/
def translateLine (s : State) (a : Access) (own : Option Leaf) (c : Nat) (root : Word × Nat) (va n : Nat) :
    Except Nat (Line × Leaf) :=
  let leaf : Except Nat Leaf :=
    match cachedLeaf s own c root.2 va with
    | some l => .ok l
    | none => (walkedLeaf s a.walker root va).getD (walk s root va)
  match leaf with
  | .error e => .error e
  | .ok l =>
    match throughLeaf s a l va n with
    | .error e => .error e
    | .ok ln => .ok (ln, l)

/-- R225: the pieces of `n` bytes from `va`, one for each 128-byte line. -/
def splitLines (fuel va n : Nat) : List (Nat × Nat) :=
  match fuel with
  | 0 => []
  | f + 1 =>
    if n = 0 then []
    else
      let k := min n (128 - va % 128)
      (va, k) :: splitLines f (va + k) (n - k)

/-- R408, R450: where `n` bytes of local HBM fail their check under a key: the first byte of them in the first line that fails. -/
def firstBad (s : State) (key a n : Nat) : Option Nat :=
  ((splitLines (n + 1) a n).find? (fun p : Nat × Nat => !hbmOk s key p.1 p.2)).map (·.1)

/-- R391: the die of an agent of a cluster; the Reeve's is die 0. -/
def agentDie (c : Nat) : Nat := if okC c then c / 96 else 0

/-- R392: the data of an access at a location, made from cluster `c` or by the Reeve, is lost on a bridge: data read travels from its home, data written to it. -/
def lostFor (s : State) (a : Access) (c : Nat) (l : Loc) : Bool :=
  match a.who with
  | some o => (a.kind != .read && beatLost s o (agentDie c) (homeDie s l)) || (a.kind != .write && beatLost s o (homeDie s l) (agentDie c))
  | none => false

/-- R220, R450: the first entry of a walk from the table `tbl` of level `lvl` that cannot be read. -/
def walkBad (s : State) (key va : Nat) : Nat → Nat → Option Nat
  | lvl, tbl =>
    let at' := tbl * 2 ^ 14 + 8 * (va / 2 ^ (14 + 11 * lvl) % 2 ^ 11)
    match readTable s key at' with
    | .error c => if c = cINTEGRITY then some at' else none
    | .ok p =>
      match lvl with
      | 0 => none
      | l + 1 => if pteV p && pteKind p == 1 then walkBad s key va l (pteFr p) else none

/-- R447: an access at `va` has ended with a code: where that is INTEGRITY, the uncorrectable read, of a table entry or of the line itself, is counted. Data
lost on a bridge was counted there (R392). -/
def countErr (s : State) (a : Access) (own : Option Leaf) (c : Nat) (root : Word × Nat) (va code : Nat) : State :=
  if code ≠ cINTEGRITY then s
  else
    match translateLine s a own c root va 1 with
    | .ok (ln, _) => if lostFor s a c ln.loc then s else countBad s ln.loc
    | .error _ =>
      if a.walker.isSome then s
      else
        match walkBad s (field root.1 46 13) va 3 (field root.1 14 30) with
        | some x => countBad s (.hbm x)
        | none => s

/-- What reading bytes line by line gives: the bytes with the leaves used, the first row of R253 that applies with its address, or a line of
another package that must be read before any later line. -/
inductive Gathered where
  | ok (bs : List Byte) (leaves : List Leaf)
  | err (code va : Nat)
  | need (va n peer addr key : Nat)
  /-- a line at which a held write stands (R358) -/
  | held
  deriving DecidableEq, Repr

/-- R253, R303, R290: the lines of an image, a tile or packet data read at Kernel level under a root, for a sequencer or the Reeve, or of a copy's source
at Task level. `c` is the cluster through which the walks go; `got` holds the lines of other packages that have been read. -/
def gatherLines (s : State) (acc : Access) (c : Nat) (own : Option Leaf) (root : Word × Nat) (got : List (Nat × List Byte))
    (ps : List (Nat × Nat)) : Gathered :=
  let rs := ps.map (fun p => (p.1, translateLine s acc own c root p.1 p.2))
  let oks := rs.filterMap (fun p => match p.2 with
    | .ok r => some r
    | .error _ => none)
  let banned (l : Line) : Bool := match l.loc with
    | .devreg _ => !acc.plain
    | .ring _ _ => !acc.task && !acc.plain
    | _ => false
  let far (l : Line) : Option (Nat × Nat) := match l.loc with
    | .peer p a => some (p, a)
    | _ => none
  let bytes (l : Line) : Option (List Byte) := if lostFor s acc c l.loc then none else match l.loc with
    | .peer _ _ => got.findSome? (fun g => if g.1 = l.va ∧ g.2.length = l.n then some g.2 else none)
    | .devreg o => (devRead s o l.n).map (leBytes l.n)
    | x => readLoc s l.key x l.n
  match ps.find? (fun p => decide (2 ^ 58 ≤ p.1)) with
  | some p => .err cBOUNDS p.1
  | none =>
    match rs.findSome? (fun p => match p.2 with
      | .error e => some (e, p.1)
      | .ok _ => none) with
    | some (e, va) => .err e va
    | none =>
      match oks.find? (fun r => banned r.1) with
      | some r => .err cPERMISSION r.1.va
      | none =>
        if oks.any (fun r => lineHeld s r.1.loc) then .held
        else match oks.find? (fun r => (bytes r.1).isNone) with
        | some r =>
          match (if lostFor s acc c r.1.loc then none else far r.1) with
          | some (p, a) => .need r.1.va r.1.n p a r.1.key
          | none => .err cINTEGRITY r.1.va
        | none => .ok (oks.flatMap (fun r => (bytes r.1).getD [])) (oks.map (·.2))

/-! The sequencer's translated accesses (R224, R252) -/

/-- R224: the sequencer's root. -/
def seqRoot (q : Seq) : Word × Nat := (q.ptbase, field q.asid 0 16)

/-- R211: an access of a sequencer as translation sees it. -/
def seqAccess (q : Seq) (c : Nat) (kind : AccKind) : Access :=
  { kind := kind, task := !q.kernel, fromSeq := true, plid := none, walker := some (.seq c) }

/-- R252 rows 2 to 4: an access of the sequencer at an address from 0x4_0000 up. -/
def seqTranslate (s : State) (kind : AccKind) (va n : Nat) : Except Nat (Line × Leaf) :=
  let q := s.me
  if 2 ^ 58 ≤ va then .error cBOUNDS
  else
    match translateLine s (seqAccess q s.cur kind) q.tlb s.cur (seqRoot q) va n with
    | .error e => .error e
    | .ok (ln, lf) =>
      match ln.loc with
      | .devreg _ => if n < 4 || kind == .atomic then .error cPERMISSION else .ok (ln, lf)
      | _ => .ok (ln, lf)

/-- The leaf that a sequencer's access used stands in its entry and in the TLBs. -/
def seqKeepLeaf (s : State) (l : Leaf) : State := keepLeaf (s.setMe { s.me with tlb := some l }) s.cur l

/-- R16, R447: a sequencer's access traps; an uncorrectable read of memory beyond its own is counted. -/
def seqTrap (s : State) (kind : AccKind) (code : Nat) (va : Word) : State :=
  (if va.toNat < windowSize then s else countErr s (seqAccess s.me s.cur kind) s.me.tlb s.cur (seqRoot s.me) va.toNat code).trap code 0 va

end Sys2Proof.Machine
end

