-- ==== Sys2Proof/Machine/Net.lean ====
section
/-! DEFINITION. Sending over the Krydeoft fabric (R398 to R401, R404). -/

namespace Sys2Proof.Machine

/-- R401: packet types. -/
def kREAD : Nat := 0x01
def kWRITE : Nat := 0x02
def kATOMIC : Nat := 0x03
def kMCWRITE : Nat := 0x04
def kRDATA : Nat := 0x10
def kWACK : Nat := 0x11
def kMACK : Nat := 0x12
def kCREDIT : Nat := 0x20
def kLINK : Nat := 0x21

/-- A packet with every field zero. -/
def kpktZero : KPacket :=
  { dst := 0, src := 0, vc := 0, type := 0, ndata := 0, status := 0, addr := 0, rid := 0, key := 0, group := 0, lg2 := 0,
    aop := 0, op0 := 0, op1 := 0, tag := 0, mask := [], data := [] }

/-- R394: the port that leads towards a peer. -/
def nextPort (s : State) (p : Nat) : Nat := field (domainOf s p) 53 5

/-- R400: a port holds credit for the flits of a packet on its channel: the 8 flits reserved to the channel, then the shared ones. -/
def hasCredit (k : KPort) (pkt : KPacket) : Bool := decide (1 + pkt.ndata ≤ vget k.credits pkt.vc 0 + k.shared)

/-- R400: the credit that a packet takes. -/
def takeCredit (k : KPort) (pkt : KPacket) : KPort :=
  let n := 1 + pkt.ndata
  let own := min n (vget k.credits pkt.vc 0)
  { k with credits := vset k.credits pkt.vc (vget k.credits pkt.vc 0 - own), shared := k.shared - (n - own) }

/-- The place of the first packet that a port holds with credit and with none of its own channel before it. -/
def nextOut (k : KPort) : Option Nat :=
  (List.range k.held.length).find? (fun i => (k.held[i]?).any (fun p => hasCredit k p && !(k.held.take i).any (fun q => q.vc == p.vc)))

/-- R400, R403: a port that is UP or FENCING sends what it holds, oldest first on each channel, while it has credit. -/
def portFlush (fuel : Nat) (s : State) (n : Nat) : State :=
  match fuel with
  | 0 => s
  | f + 1 =>
    let k := kportOf s n
    if k.st == .up || k.st == .fencing then
      match (nextOut k).bind (fun i => (k.held[i]?).map (fun p => (i, p))) with
      | some (i, p) =>
        let k1 := takeCredit { k with held := k.held.eraseIdx i } p
        portFlush f ({ s with kports := Tab.set s.kports n k1 }.emitOut (.krydeoft n p)) n
      | none => s
    else s

/-- A packet is handed to a port. A FENCING port takes no new packets (R403): the packet is lost. -/
def portSend (s : State) (n : Nat) (p : KPacket) : State :=
  let k := kportOf s n
  if k.st == .up || k.st == .training then
    portFlush (k.held.length + 1) { s with kports := Tab.set s.kports n { k with held := k.held ++ [p] } } n
  else s

/-- R401, R408: the integrity tag of a packet's data; nothing is sent under the plaintext key 0 with one. -/
def packetTag (s : State) (key addr : Nat) (data : List Byte) : Word :=
  if key = 0 ∨ data.isEmpty then 0 else Config.dataTag (keyEntry s key).secret addr data

/-- R398: a request leaves for another package and its answer is awaited. `part` is the packet's own part. -/
def sendRemote (s : State) (o : Owner) (peer off n : Nat) (part : KPacket) : State :=
  let port := nextPort s peer
  let rid := s.nextRid
  let s1 := { s with
    nextRid := rid + 1
    remotes := s.remotes ++ [{ rid := rid, owner := o, port := port, peer := peer, off := off, n := n, mc := false, key := part.key, addr := part.addr }] }
  portSend s1 port { part with
    dst := peer, src := ownPeer s, vc := 0, rid := rid, ndata := (part.data.length + 63) / 64, tag := packetTag s part.key part.addr part.data }

/-- The largest power of two, as its exponent, that divides the address and does not exceed the bytes left (R401: a packet names 2^0 to
2^8 bytes). -/
def chunkLog (a n : Nat) : Nat :=
  ((List.range 9).filter (fun k => a % 2 ^ k = 0 ∧ 2 ^ k ≤ n)).getLastD 0

/-- The aligned power-of-two pieces of a range. -/
def chunks (fuel a n : Nat) : List (Nat × Nat) :=
  match fuel with
  | 0 => []
  | f + 1 => if n = 0 then [] else (a, chunkLog a n) :: chunks f (a + 2 ^ chunkLog a n) (n - 2 ^ chunkLog a n)

/-- A read of `n` bytes of a peer for an issuer. -/
def remoteRead (s : State) (o : Owner) (peer addr key off n : Nat) : State :=
  (chunks (n + 1) addr n).foldl (fun st c =>
    sendRemote st o peer (off + (c.1 - addr)) (2 ^ c.2) { kpktZero with type := kREAD, addr := peer * 2 ^ 46 + c.1, key := key, lg2 := c.2 }) s

/-- A write of bytes at a peer for an issuer. -/
def remoteWrite (s : State) (o : Owner) (peer addr key off : Nat) (bs : List Byte) : State :=
  (chunks (bs.length + 1) addr bs.length).foldl (fun st c =>
    sendRemote st o peer (off + (c.1 - addr)) (2 ^ c.2)
      { kpktZero with type := kWRITE, addr := peer * 2 ^ 46 + c.1, key := key, lg2 := c.2,
                      data := (bs.drop (c.1 - addr)).take (2 ^ c.2) }) s

/-- R401: the AOP code with which an ATOMIC packet carries a compare and swap: the layout gives it operands but no code. -/
def aopCas : Nat := 15

/-- An atomic of `n` bytes at a peer for an issuer. -/
def remoteAtomic (s : State) (o : Owner) (peer addr key n aop : Nat) (op0 op1 : Word) : State :=
  sendRemote s o peer 0 n { kpktZero with
    type := kATOMIC, addr := peer * 2 ^ 46 + addr, key := key, lg2 := Nat.log2 n, aop := aop, op0 := op0, op1 := op1 }

end Sys2Proof.Machine
end

