-- ==== Sys2Proof/Machine/SeqMem.lean ====
section
/-! DEFINITION. The sequencer's loads, stores and atomics (R42, R43, R48, R252). -/

namespace Sys2Proof.Machine

/-- Where a data access of the sequencer goes: local memory, or a translated line with the leaf it used; or the access waits, for a walk (R226) or for a write
that holds its line (R358). -/
inductive Reach where
  | here
  | far (ln : Line) (lf : Leaf)
  | wait (t : State)
  deriving DecidableEq, Repr

/-- R27 rows 7 to 9, R43, R252: the checks of an access of `n` bytes at an address. -/
def seqReach (s : State) (kind : AccKind) (addr n : Nat) : Except Nat Reach :=
  if addr % n ≠ 0 then .error cALIGNMENT
  else if addr < windowSize then
    if s.me.kernel || s.me.taskPage addr then .ok .here else .error cPERMISSION
  else if !s.me.xe then .error cBOUNDS
  else
    let own := Owner.seq s.cur
    let s0 : State := if s.me.wait.isNone then walksPast s own else s
    match walkNeeded s0 (seqAccess s.me s.cur kind) s.me.tlb s.cur (seqRoot s.me) [(addr, n)] with
    | some va => .ok (.wait (askWalk s0 (seqAccess s.me s.cur kind) s.cur (seqRoot s.me) va))
    | none =>
      match seqTranslate s0 kind addr n with
      | .error c => .error c
      | .ok (ln, lf) => if lineHeld s ln.loc then .ok (.wait s0) else .ok (.far ln lf)

/-- The sequencer's access is taken up again in a later cycle. -/
def seqHold (t : State) : State := t.setMe { t.me with wait := some .again }

/-- R43, R252: a load of `n` bytes into g[d]. Class L: 1 cycle. Data lost on a bridge is uncorrectable (R392). -/
def seqLoad (d a : BitVec 5) (imm : BitVec 16) (n : Nat) (sx : Bool) (s : State) : State :=
  let va := s.ea a imm
  match seqReach s .read va.toNat n with
  | .error c => seqTrap s .read c va
  | .ok .here =>
    if s.me.memErr.contains (va.toNat / 8) then s.trap cINTEGRITY 0 va
    else (s.result d (extend n sx (leNat (memRead s.me.mem va.toNat n))) 1).loaded d
  | .ok (.wait t) => seqHold t
  | .ok (.far ln lf) =>
    if beatLost s (.seq s.cur) (homeDie s ln.loc) (s.cur / 96) then (beatsPast s (.seq s.cur)).trap cINTEGRITY 0 va
    else
    match ln.loc with
    | .peer p x =>
      let s1 := seqKeepLeaf s lf
      remoteRead (s1.setMe { s1.me with wait := some (.remote s1.nextRid d.toNat n sx false va) }) (.seq s.cur) p x ln.key 0 n
    | .devreg o =>
      match devRead s o n with
      | some v => ((seqKeepLeaf s lf).result d (extend n sx v) 1).loaded d
      | none => s.trap cINTEGRITY 0 va
    | l =>
      let s0 := beatsPast s (.seq s.cur)
      match readLoc s ln.key l n with
      | some bs => ((seqKeepLeaf (drainPort s0 l) lf).result d (extend n sx (leNat bs)) 1).loaded d
      | none => (countBad s0 l).trap cINTEGRITY 0 va

/-- R43, R252: a store of the low `n` bytes of g[r]. Class T: 1 cycle. The host or the guest port accepts it and performs it later. A line of which the guest holds a copy is recalled first (R427). -/
def seqStore (r a : BitVec 5) (imm : BitVec 16) (n : Nat) (s : State) : State :=
  let va := s.ea a imm
  let bs := leBytes n (s.reg r).toNat
  match seqReach s .write va.toNat n with
  | .error c => seqTrap s .write c va
  | .ok .here =>
    if partlyBad s.me.memErr 8 va.toNat n then s.trap cINTEGRITY 0 va
    else
      (s.setMe { s.me with mem := memWrite s.me.mem va.toNat bs, memErr := coverErr s.me.memErr 8 va.toNat n }).advance 1
  | .ok (.wait t) => seqHold t
  | .ok (.far ln lf) =>
    match guestCopy s ln.loc with
    | some line => seqHold (recallLine s line)
    | none =>
      match ln.loc with
      | .peer p x =>
        let s1 := seqKeepLeaf s lf
        remoteWrite (s1.setMe { s1.me with wait := some (.remote s1.nextRid 0 0 false false va) }) (.seq s.cur) p x ln.key 0 bs
      | .devreg o => ((devWrite (seqKeepLeaf s lf) o n (s.reg r).toNat).advance 1)
      | .host _ => (seqKeepLeaf (postStore s (.seq s.cur) none false ln.loc bs) lf).advance 1
      | .guest _ => (seqKeepLeaf (postStore s (.seq s.cur) none false ln.loc bs) lf).advance 1
      | l =>
        match writeLoc s ln.key l bs with
        | some s1 => (seqKeepLeaf s1 lf).advance 1
        | none => (countBad s l).trap cINTEGRITY 0 va

/-- R437: the atomics that a host takes: those of 8 bytes that a PCIe AtomicOp expresses. -/
def hostAtomic (aop n : Nat) (cas : Bool) : Bool := n == 8 && (cas || aop == 0 || aop == 1)

/-- R48: the new value of an atomic, none where AMOCAS fails its comparison. -/
def amoNew (cas : Bool) (op : Nat) (old b c : Word) : Option Word :=
  if cas then (if old = c then some b else none) else some (BitVec.ofNat 64 (atomicNew op 64 old.toNat b.toNat))

/-- R48, R252: an atomic on the 64-bit word at g[a]; the old value goes to g[d]; data lost on a bridge is uncorrectable (R392). Class X: 4 cycles. -/
def seqAtomic (cas : Bool) (op : Nat) (d a b : BitVec 5) (c : BitVec 5) (s : State) : State :=
  let va := s.reg a
  match seqReach s .atomic va.toNat 8 with
  | .error e => seqTrap s .atomic e va
  | .ok .here =>
    if s.me.memErr.contains (va.toNat / 8) then s.trap cINTEGRITY 0 va
    else
      let old := memWord s.me.mem va.toNat
      match amoNew cas op old (s.reg b) (s.reg c) with
      | some v => (s.setMe { s.me with mem := memWrite s.me.mem va.toNat (leBytes 8 v.toNat) }).result d old 4
      | none => s.result d old 4
  | .ok (.wait t) => seqHold t
  | .ok (.far ln lf) =>
    if beatLost s (.seq s.cur) (homeDie s ln.loc) (s.cur / 96) then (beatsPast s (.seq s.cur)).trap cINTEGRITY 0 va
    else
    match guestCopy s ln.loc with
    | some line => seqHold (recallLine s line)
    | none =>
      match ln.loc with
      | .peer p x =>
        let s1 := seqKeepLeaf s lf
        remoteAtomic (s1.setMe { s1.me with wait := some (.remote s1.nextRid d.toNat 8 false true va) }) (.seq s.cur) p x ln.key 8
          (if cas then aopCas else op) (if cas then s.reg c else s.reg b) (if cas then s.reg b else 0)
      | l =>
        if (match l with | .host _ => !hostAtomic op 8 cas | _ => false) then s.trap cPERMISSION 0 va
        else
          match readLoc s ln.key l 8 with
          | none => (countBad s l).trap cINTEGRITY 0 va
          | some bs =>
            let old := BitVec.ofNat 64 (leNat bs)
            let s1 := seqKeepLeaf s lf
            match amoNew cas op old (s.reg b) (s.reg c) with
            | some v =>
              match writeLoc s1 ln.key l (leBytes 8 v.toNat) with
              | some s2 => s2.result d old 4
              | none => s.trap cINTEGRITY 0 va
            | none => s1.result d old 4

/-- R43. -/
def execLb (d a : BitVec 5) (imm : BitVec 16) (s : State) : Result := .next (seqLoad d a imm 1 true s)
/-- R43. -/
def execLbu (d a : BitVec 5) (imm : BitVec 16) (s : State) : Result := .next (seqLoad d a imm 1 false s)
/-- R43. -/
def execLh (d a : BitVec 5) (imm : BitVec 16) (s : State) : Result := .next (seqLoad d a imm 2 true s)
/-- R43. -/
def execLhu (d a : BitVec 5) (imm : BitVec 16) (s : State) : Result := .next (seqLoad d a imm 2 false s)
/-- R43. -/
def execLw (d a : BitVec 5) (imm : BitVec 16) (s : State) : Result := .next (seqLoad d a imm 4 true s)
/-- R43. -/
def execLwu (d a : BitVec 5) (imm : BitVec 16) (s : State) : Result := .next (seqLoad d a imm 4 false s)
/-- R43, R252. -/
def execLd (d a : BitVec 5) (imm : BitVec 16) (s : State) : Result := .next (seqLoad d a imm 8 false s)
/-- R43. -/
def execSb (r a : BitVec 5) (imm : BitVec 16) (s : State) : Result := .next (seqStore r a imm 1 s)
/-- R43. -/
def execSh (r a : BitVec 5) (imm : BitVec 16) (s : State) : Result := .next (seqStore r a imm 2 s)
/-- R43. -/
def execSw (r a : BitVec 5) (imm : BitVec 16) (s : State) : Result := .next (seqStore r a imm 4 s)
/-- R43, R252. -/
def execSd (r a : BitVec 5) (imm : BitVec 16) (s : State) : Result := .next (seqStore r a imm 8 s)

/-- R48. -/
def execAmoswap (d a b : BitVec 5) (s : State) : Result := .next (seqAtomic false 0 d a b 0 s)
/-- R48. -/
def execAmocas (d a b c : BitVec 5) (s : State) : Result := .next (seqAtomic true 0 d a b c s)
/-- R48. -/
def execAmoadd (d a b : BitVec 5) (s : State) : Result := .next (seqAtomic false 1 d a b 0 s)
/-- R48. -/
def execAmoand (d a b : BitVec 5) (s : State) : Result := .next (seqAtomic false 2 d a b 0 s)
/-- R48. -/
def execAmoor (d a b : BitVec 5) (s : State) : Result := .next (seqAtomic false 3 d a b 0 s)
/-- R48. -/
def execAmoxor (d a b : BitVec 5) (s : State) : Result := .next (seqAtomic false 4 d a b 0 s)
/-- R48. -/
def execAmomin (d a b : BitVec 5) (s : State) : Result := .next (seqAtomic false 5 d a b 0 s)
/-- R48. -/
def execAmomax (d a b : BitVec 5) (s : State) : Result := .next (seqAtomic false 6 d a b 0 s)

end Sys2Proof.Machine
end

