-- ==== Sys2Proof/Machine/Fabric.lean ====
section
/-! DEFINITION. Tokens in the fabric: headers (R52 to R54), configuration words (R55, R56), custody and activity (R67, R68), matching
stores and tile slots (R58, R59), throttling and spill (R71 to R73), stale and stray tokens (R74, R75), and the acceptance of a token by
a context (R66, R67, R70). -/

namespace Sys2Proof.Machine

/-! Fields -/

/-- R53. -/
def kindCode : Kind → Nat
  | .data => 0
  | .tile => 1
  | .fin => 2
  | .mark => 3
  | .kill => 4
  | .commit => 5
  | .bound => 6
  | .poison => 7

/-- R53. -/
def kindOf : Nat → Kind
  | 0 => .data
  | 1 => .tile
  | 2 => .fin
  | 3 => .mark
  | 4 => .kill
  | 5 => .commit
  | 6 => .bound
  | _ => .poison

/-- R52: the header of a token that stands in context slot `x`. -/
def Tok.header (t : Tok) (x : Nat) : Word :=
  word (at' (x % 4) 62 + at' t.gen.toNat 60 + at' t.frame.toNat 50 + at' t.iter.toNat 34 + at' t.spec.toNat 31
    + at' (kindCode t.kind) 28 + at' t.level.toNat 25 + at' t.port.toNat 21 + t.btag.toNat)

/-- A DATA token of payload 0 with every tag field zero. -/
def tokZero : Tok :=
  { gen := 0, frame := 0, iter := 0, spec := 0, kind := .data, level := 0, port := 0, btag := 0, payload := 0, tile := none,
    slotRef := none, cust := none, cmd := none }

/-- The token that a header and a payload describe, without tile bytes. -/
def tokOfHeader (h p : Word) : Tok :=
  { tokZero with
    gen := BitVec.ofNat 2 (field h 60 2), frame := BitVec.ofNat 10 (field h 50 10), iter := BitVec.ofNat 16 (field h 34 16),
    spec := BitVec.ofNat 3 (field h 31 3), kind := kindOf (field h 28 3), level := BitVec.ofNat 3 (field h 25 3),
    port := BitVec.ofNat 4 (field h 21 4), btag := BitVec.ofNat 21 (field h 0 21), payload := p }

/-- R103: the operator code of an instruction word. -/
def wOPC (w : BitVec 32) : Nat := (fld w 24 8).toNat

/-! R55: the configuration word -/

def ccwPLID (w : Word) : Nat := field w 38 14
def ccwQEXP (w : Word) : Nat := field w 32 6
def ccwTHR (w : Word) : Nat := field w 21 11
def ccwIW (w : Word) : Nat := field w 6 5
def ccwCXF (w : Word) : Bool := bit w 5
def ccwEXCL (w : Word) : Bool := bit w 4
def ccwPRIO (w : Word) : Nat := field w 0 3

/-- R56: the inner field of an iteration tag. -/
def inner (iw : Nat) (i : BitVec 16) : Nat := i.toNat % 2 ^ iw

/-- R56: the outer field of an iteration tag. -/
def outer (iw : Nat) (i : BitVec 16) : Nat := i.toNat / 2 ^ iw

/-- R56: an iteration tag of an outer and an inner field, each modulo its width. -/
def mkIter (iw out inn : Nat) : BitVec 16 := BitVec.ofNat 16 (out % 2 ^ (16 - iw) * 2 ^ iw + inn % 2 ^ iw)

/-! R112: a placed route entry -/

def rtV (w : Word) : Bool := bit w 63
def rtTGT (w : Word) : Nat := field w 61 2
def rtNET (w : Word) : Bool := bit w 60
def rtPLOT (w : Word) : Nat := field w 36 12
def rtELEM (w : Word) : Nat := field w 34 2
def rtCTX (w : Word) : Nat := field w 32 2
def rtPORT (w : Word) : Nat := field w 28 4
def rtEPN (w : Word) : Nat := field w 20 8

/-- The element that a route leads to. -/
def rtElem (w : Word) : Nat := rtPLOT w * 4 + rtELEM w

/-! R54: a tile descriptor -/

def dFMT (d : Word) : Nat := field d 60 4
def dROWSM1 (d : Word) : Nat := field d 54 6
def dCOLSM1 (d : Word) : Nat := field d 48 6
def dTSLOT (d : Word) : Nat := field d 40 8
def dMSLOT (d : Word) : Nat := field d 32 8

/-! Activity and custody -/

/-- The tokens that a place holds for a frame and generation: a result of FNEW or FRET counts for its own frame until it is accepted (R144). -/
def Tok.countsFor (t : Tok) (f : Nat) (g : BitVec 2) : Bool :=
  match t.cust with
  | some (f', g') => f' == f && BitVec.ofNat 2 g' == g
  | none => t.frame.toNat == f && t.gen == g

/-- The markers of a frame that a context holds: those that wait for its staging, and those that its staging has counted (R361, R362). -/
def marksOf (marksIn : List (Nat × Nat × Nat)) (stagings : List Staging) (f : Nat) : Nat :=
  marksIn.countP (fun m => m.1 == f) + ((stagings.filter (fun z => z.frame == f && !z.done)).map (fun z => z.marks.length)).sum

/-- Tokens of a frame and generation held in one context; markers (R361, R362) carry the frame's current generation. -/
def ctxCustody (c : Ctx) (p f : Nat) (g : BitVec 2) (cur : Bool) : Nat :=
  if c.st == .free || c.plid != p then 0
  else
    (c.ms.countP (fun m => m.tok.countsFor f g)) + ((c.fifo.toList.map (fun q => q.countP (fun t => t.countsFor f g))).sum)
      + c.waitIn.countP (fun t => t.2.countsFor f g)
      + (if cur then marksOf c.marksIn c.stagings f else 0)

/-- Entries of a frame and generation held in a memory port. -/
def portCustody (e : Elem) (p f : Nat) (g : BitVec 2) : Nat :=
  e.port.countP (fun m => m.plid == p && !m.dead && m.tag.countsFor f g)

/-- R68: the custody count of a cluster for a frame and generation of a placement: matching stores, route FIFOs, memory ports, spill areas,
copy engine, guest packets sent from it, ARRIVE tokens at the edge ports of its rings (R284), saved images and what is staged for them, and the holds of
R90 and R314. (DEDUCED, safe: log 16.) -/
def custody (s : State) (c p f : Nat) (g : BitVec 2) : Nat :=
  let els := s.elems.filter (fun e => clusterOfElem e.1 == c)
  let fabric := (els.map (fun e => portCustody e.2 p f g + (e.2.ctx.toList.map (fun x => ctxCustody x p f g (s.genAt p f c == g))).sum)).sum
  let spilled := s.spills.countP (fun t => t.cl == c && t.plid == p && t.tok.countsFor f g)
  let engine := (s.clusterOf c).ce.countP (fun k => k.plid == p && k.sender.isSome && k.tag.countsFor f g)
  let guest := s.guest.tags.countP (fun t => t.2.cl == c && t.2.plid == p && t.2.tag.countsFor f g)
  let fr := s.frameOf p f
  let saved := match s.placeOf p with
    | some pl => (pl.saved.map (fun v => if v.cl == c then
        v.toks.countP (fun h => !h.dropped && (match h.cust with
              | some (f', g') => f' == f && BitVec.ofNat 2 g' == g
              | none => h.frame == f && BitVec.ofNat 2 h.gen == g))
          + (if fr.gen == g then (v.ctxs.map (fun k => marksOf k.marksIn k.stagings f)).sum else 0) else 0)).sum
        + pl.stagedIn.countP (fun t => t.cl == c && t.tok.countsFor f g)
    | none => 0
  let arrives := if fr.gen == g then ((s.rings.filter (fun r => r.2.cl == c && r.2.plid == p && r.2.frame == f)).map (fun r =>
      r.2.pendingArrive.length)).sum else 0
  let holds := if fr.home == c && fr.gen == g then fr.hold.toNat + fr.ringHolds else 0
  fabric + spilled + engine + guest + saved + arrives + holds

/-- R68: the frame and generation that count a token while its sender holds it. -/
def countedFor (t : Tok) : Nat × BitVec 2 :=
  match t.cust with
  | some (f, g) => (f, BitVec.ofNat 2 g)
  | none => (t.frame.toNat, t.gen)

/-- R68, R76, R77: an event of a frame and generation in a cluster sets that activity bit and restarts that quiet counter; a DEADLOCKED frame runs again. -/
def touch (s : State) (c p f : Nat) (g : BitVec 2) : State :=
  let key := (p, f, g.toNat)
  let s1 := if (s.clusterOf c).act.contains key then s else s.updCluster c (fun k => { k with act := key :: k.act })
  let fr := s1.frameOf p f
  let k := 4 * c + g.toNat
  let wakes := fr.st == .deadlocked && fr.gen == g
  if fr.st != .free && (Tab.get? fr.quiet k != some 0 || wakes) then
    s1.updFrame p f (fun r => { r with quiet := Tab.set r.quiet k 0, st := if wakes then .running else r.st })
  else s1

/-- R69: a cluster whose count for the frame's current generation has fallen to zero announces it to the package crier, which runs rounds for a frame that is
RUNNING. (DESIGN CHOICE, unsafe: log 112.) -/
def announceZero (s : State) (c p f : Nat) (g : BitVec 2) : State :=
  let fr := s.frameOf p f
  if fr.st == .running && fr.gen == g && !fr.announced && custody s c p f g == 0 then
    s.updFrame p f (fun r => { r with announced := true })
  else s

/-- Tokens of a frame and generation have left a cluster. -/
def left (s : State) (c p f : Nat) (g : BitVec 2) : State := announceZero (touch s c p f g) c p f g

/-! Fault records that are not firings (R324, R332, R334) -/

/-- R324 ELEM: die [13:11], cluster [10:4], element [3:0]. -/
def elemField (e : Nat) : Nat := at' (e / 16 / 96) 11 + at' (e / 16 % 96) 4 + e % 16

/-- R324 CS: SLOT [5:2], CTX [1:0]. -/
def csField (x k : Nat) : Nat := at' (k % 16) 2 + x % 4

/-- R324: PLID, FRAME and GEN. -/
def frmField (p f : Nat) (g : BitVec 2) : Nat := p + at' f 14 + at' g.toNat 24

/-- A record with every field zero. -/
def recordZero : Record :=
  { hdra := 0, hdrb := 0, paya := 0, payb := 0, fval := 0, elem := 0, cs := 0, opc := 0, code := 0, kind := 0, win := 0, frm := 0,
    aux := 0, fault := none }

/-- R326: a record is sent to a cluster's queue, where it waits until it can be written. -/
def sendRecord (s : State) (c : Nat) (r : Record) : State := s.updCluster c (fun k => { k with recq := k.recq ++ [r] })

/-- R75, R334: a stray token is dropped and counted at a cluster, with at most one record per 65,536 of its sequencer's cycles. -/
def strayDrop (s : State) (c e x p : Nat) (t : Tok) : State :=
  let s1 := s.updCluster c (fun k => { k with straycnt := k.straycnt + 1 })
  let now := (s.seqOf c).cycle
  let quietSince := match (s.clusterOf c).lastStray with
    | none => true
    | some v => decide (65536 ≤ (now - v).toNat)
  if quietSince then
    sendRecord (s1.updCluster c (fun k => { k with lastStray := some now })) c
      { recordZero with hdra := t.header x, paya := t.payload, code := cSTRAY, kind := 4, elem := elemField e, cs := csField x 0,
                        frm := frmField p t.frame.toNat t.gen, aux := field (s1.clusterOf c).straycnt 0 32 }
  else s1

/-- R74: a stale token is dropped and counted at a cluster. -/
def staleDrop (s : State) (c p : Nat) (t : Tok) : State :=
  left (s.updCluster c (fun k => { k with stalecnt := k.stalecnt + 1 })) c p t.frame.toNat t.gen

/-! Matching store and tile slots -/

/-- R58: the entries of a context's matching store. -/
def msCapacity (c : Ctx) : Nat := pMSG c.part * 128

/-- Free entries of a context's matching store. -/
def msFree (c : Ctx) : Nat := msCapacity c - c.ms.length

/-- An entry still keeps its operand B's tile slot: an STT until every line of it has been sent (R245). -/
def keepsSlotB (m : MemEntry) : Bool := !(wOPC m.wrd == 0x44) || m.st == .created || m.st == .walking || m.st == .translated

/-- Tile slots in use: by waiting tokens, by results in flight or in a FIFO (R144), and by memory-port entries. -/
def usedSlots (el : Elem) (x : Nat) (c : Ctx) : List Nat :=
  c.ms.filterMap (fun m => m.slot) ++ c.fifo.toList.flatMap (fun q => q.filterMap (fun t => t.slotRef))
    ++ c.inflight.flatMap (fun f => match f.out with
        | .emit rs _ posts => rs.filterMap (fun r => r.tok.slotRef) ++ posts.filterMap (fun p => match p with
            | .entry m => m.res
            | _ => none) ++ f.spare
        | .fault _ _ => f.spare)
    ++ (el.port.filter (fun m => m.x == x)).flatMap (fun m => m.res.toList ++ (if keepsSlotB m then m.opB.slot.toList else []) ++ m.opA.slot.toList)

/-- R60 item 6, R179: the free tile slots of a context, standing slots never among them. -/
def freeSlots (el : Elem) (x : Nat) (c : Ctx) : List Nat :=
  (List.range (pTSG c.part)).filter (fun t => decide (c.standing ≤ t) && !(usedSlots el x c).contains t)

/-- R81: the place of a tile slot's bytes in the context's own pool. -/
def slotOff (c : Ctx) (t : Nat) : Nat := (pMSG c.part + t) * 4096

/-! Throttling (R71) -/

/-- A spilled token of a context. -/
def spillOf (c : Ctx) (t : Spilled) : Bool := t.plid == c.plid && t.vp == c.vp && t.el == c.el

/-- The context has spilled tokens. -/
def hasSpill (s : State) (c : Ctx) : Bool := s.spills.any (spillOf c)

/-- R71: the hold-back starts when free entries fall below THR and ends when they reach it and nothing is spilled; THROTCNT counts starts. -/
def throttle (s : State) (e x : Nat) : State :=
  let c := s.ctxOf e x
  if c.st != .live then s
  else
    let low := decide (msFree c < ccwTHR c.ccw) || hasSpill s c
    if low && !c.throttled then s.setCtx e x { c with throttled := true, throtcnt := c.throtcnt + 1 }
    else if !low && c.throttled then s.setCtx e x { c with throttled := false }
    else s

/-! Channels (R361) -/

/-- A route as a channel, an entry port as a channel, a ring's binding as a channel, and the direct marker of a context without channels. -/
def chanRoute (src r : Nat) : Nat := 4 * (16 * src + r)
def chanEntry (n : Nat) : Nat := 4 * n + 1
def chanRing (r : Nat) : Nat := 4 * r + 2
def chanDirect : Nat := 3

/-! Acceptance -/

/-- R72, R89: the bytes of spill room that a token takes. -/
def spillSize (t : Tok) : Nat := 32 + (if t.tile.isSome then 4096 else 0)

/-- Room already taken by a frame's spilled tokens in a cluster's commons pages, or in its HBM region. -/
def spillUsed (s : State) (p f : Nat) (hbm : Bool) (c : Nat) : Nat :=
  ((s.spills.filter (fun t => t.plid == p && t.tok.frame.toNat == f && t.hbm == hbm && (hbm || t.cl == c))).map
    (fun t => spillSize t.tok)).sum

/-- R72: where a token of the frame spills in cluster `c`: false its commons pages, true its HBM region, none where neither has room. -/
def spillPlace (s : State) (c p : Nat) (t : Tok) : Option Bool :=
  let fr := s.frameOf p t.frame.toNat
  if spillUsed s p t.frame.toNat false c + spillSize t ≤ Tab.getD fr.pages c 0 * 4096 then some false
  else if spillUsed s p t.frame.toNat true c + spillSize t ≤ fr.regionSize then some true
  else none

/-- A token enters a matching store: its arrival is numbered, and a tile's bytes go to a free tile slot, which its TSLOT then names (R54, R59), and clear the errors of the words that they
cover (R450). -/
def enterMs (s : State) (e x : Nat) (net : Bool) (t : Tok) : State :=
  let el := s.elemOf e
  let c := s.ctxOf e x
  let slot := if t.tile.isSome then (freeSlots el x c).head? else none
  let t1 := { t with slotRef := none, cust := none, payload := match slot with
    | some n => setField t.payload 40 8 n
    | none => t.payload }
  let pool := match slot, t.tile with
    | some n, some bs => memWrite c.pool (slotOff c n) bs
    | _, _ => c.pool
  let err := match slot, t.tile with
    | some n, some bs => coverErr c.poolErr 8 (slotOff c n) bs.length
    | _, _ => c.poolErr
  let m : MsEntry := { tok := t1, slot := slot, net := net, ord := el.nextOrd, st := .idle }
  (s.setElem e { el with nextOrd := el.nextOrd + 1 }).setCtx e x { c with ms := c.ms ++ [m], pool := pool, poolErr := err }

/-- The store can take a token now: an entry, and for a tile a slot (R59). -/
def msTakes (s : State) (e x : Nat) (t : Tok) : Bool :=
  decide (0 < msFree (s.ctxOf e x)) && (t.tile.isNone || !(freeSlots (s.elemOf e) x (s.ctxOf e x)).isEmpty)

/-- R73, R332: a token that finds no spill room raises SPILL_EXHAUSTED, once for each episode. -/
def spillExhausted (s : State) (e x p chan : Nat) (t : Tok) : State :=
  let fr := s.frameOf p t.frame.toNat
  if fr.episodes.contains (e, x, chan, t) then s
  else
    sendRecord (s.updFrame p t.frame.toNat (fun r => { r with episodes := (e, x, chan, t) :: r.episodes })) fr.home
      { recordZero with hdra := t.header x, paya := t.payload, code := cSPILL, kind := 3, elem := elemField e, cs := csField x 0,
                        frm := frmField p t.frame.toNat t.gen }

/-- R332: a token that found no spill room has been accepted at its context, or spilled there: its episode is over. -/
def endEpisode (s : State) (e x p chan : Nat) (t : Tok) : State :=
  let f := t.frame.toNat
  if (s.frameOf p f).episodes.contains (e, x, chan, t) then
    s.updFrame p f (fun r => { r with episodes := r.episodes.filter (· != (e, x, chan, t)) })
  else s

/-! The return of spilled tokens (R72) -/

/-- R72, R364: a context can take back its oldest spilled token, or the first restored token that waits. -/
def spillReturns (s : State) (e x : Nat) : Bool :=
  let c := s.ctxOf e x
  let cl := clusterOfElem e
  c.st == .live && c.spillKills.isEmpty &&
    (match s.spills.find? (spillOf c) with
     | some v => msTakes s e x v.tok || v.tok.gen != s.genAt v.plid v.tok.frame.toNat cl
     | none => match c.waitIn with
        | w :: _ => msTakes s e x w.2 || w.2.gen != s.genAt c.plid w.2.frame.toNat cl
        | [] => false)

/-- R72: the oldest spilled token of a context, which can be taken back, returns to its matching store; a stale one is dropped (R74). -/
def returnSpill (s : State) (e x : Nat) : State :=
  let c := s.ctxOf e x
  let cl := clusterOfElem e
  match s.spills.find? (spillOf c) with
  | some v =>
    let s1 := { s with spills := eraseFirst (· == v) s.spills }
    let f := v.tok.frame.toNat
    if v.tok.gen != s.genAt c.plid f cl then throttle (staleDrop s1 v.cl c.plid v.tok) e x
    else throttle (left (touch (enterMs s1 e x v.net v.tok) cl c.plid f v.tok.gen) v.cl c.plid f v.tok.gen) e x
  | none =>
    match c.waitIn with
    | [] => s
    | w :: rest =>
      let s1 := s.setCtx e x { c with waitIn := rest }
      let f := w.2.frame.toNat
      if w.2.gen != s.genAt c.plid f cl then staleDrop s1 cl c.plid w.2
      else throttle (touch (endEpisode (enterMs s1 e x w.1 w.2) e x c.plid chanDirect w.2) cl c.plid f w.2.gen) e x

/-- R72: every spilled token that can return does so: one for each entry and tile slot that has become free. -/
def drainSpill : Nat → State → Nat → Nat → State
  | 0, s, _, _ => s
  | n + 1, s, e, x => if spillReturns s e x then drainSpill n (returnSpill s e x) e x else s

/-- R66, R72: an earlier token of the same route stands in the context's spill area. Tokens that are injected keep no order among them. (DEDUCED, unsafe: log 108.) -/
def spilledAhead (s : State) (c : Ctx) (chan : Nat) : Bool :=
  chan % 4 == 0 && s.spills.any (fun v => spillOf c v && v.chan == chan)

/-- What happened to a token at a receiver. -/
inductive Arrival where
  /-- accepted, spilled or dropped: the sender ceases to hold it -/
  | taken (s : State)
  /-- it stays where it stands; the state may carry a report -/
  | refused (s : State)

/-- R70, R74, R75: a frame that takes tokens of a generation. -/
def frameTakes (fr : Frame) : Bool := !(fr.st == .free || fr.st == .complete)

/-- R72: a token that the store cannot take is spilled, where there is room. -/
def spillArrival (s : State) (e x p chan : Nat) (net : Bool) (t : Tok) : Arrival :=
  let cl := clusterOfElem e
  let c := s.ctxOf e x
  let f := t.frame.toNat
  match spillPlace s cl p t with
  | some h =>
    let sp : Spilled := { plid := p, vp := c.vp, el := c.el, cl := cl, hbm := h, net := net, chan := chan, tok := { t with slotRef := none, cust := none } }
    let s1 := { s with spills := s.spills ++ [sp] }
    let s2 := s1.updCtx e x (fun k => { k with spillcnt := k.spillcnt + 1 })
    .taken (throttle (touch (endEpisode s2 e x p chan t) cl p f t.gen) e x)
  | none => .refused (spillExhausted s e x p chan t)

/-- R66, R67, R72 to R75: a DATA, TILE, END, BOUND or POISON token reaches, on a channel, context slot `x` of element `e`, which holds a context
of placement `p`; while that context is still being written, the token stands where it is. (DEDUCED, unsafe: log 108.) -/
def arrive (s : State) (e x p chan : Nat) (net : Bool) (t : Tok) : Arrival :=
  let cl := clusterOfElem e
  let c := s.ctxOf e x
  let f := t.frame.toNat
  if c.st == .filling && c.plid == p then .refused s
  else if c.st != .live || c.plid != p || !frameTakes (s.frameOf p f) then .taken (strayDrop s cl e x p t)
  else if s.genAt p f cl != t.gen then .taken (staleDrop s cl p t)
  else
    let s1 := if hasSpill s c then drainSpill (s.spills.length + 1) s e x else s
    if msTakes s1 e x t && !spilledAhead s1 c chan then
      .taken (throttle (touch (endEpisode (enterMs s1 e x net t) e x p chan t) cl p f t.gen) e x)
    else spillArrival s1 e x p chan net t

/-- The state after an arrival. -/
def Arrival.state : Arrival → State
  | .taken s => s
  | .refused s => s

end Sys2Proof.Machine
end

