-- ==== Sys2Proof/Machine/Fire.lean ====
section
/-! DEFINITION. The firing rule (R60 to R64, R146): which slots are matched and ready, which operands a slot takes, how the arbiter
chooses, and what a firing is given (R104, R105, R107, R61). -/

namespace Sys2Proof.Machine

/-! The element word -/

/-- R103: the fields of an instruction word. -/
def wSA (w : BitVec 32) : Nat := (fld w 20 4).toNat
def wSB (w : BitVec 32) : Nat := (fld w 16 4).toNat
def wD0 (w : BitVec 32) : Nat := (fld w 12 4).toNat
def wD1 (w : BitVec 32) : Nat := (fld w 8 4).toNat
def wTA (w : BitVec 32) : Nat := (fld w 4 4).toNat
def wATR (w : BitVec 32) : Nat := (fld w 0 4).toNat

/-- R105: the operators that take settings from a[ATR] (R150, R172, R176, R177, R181, R202, R240, R294, R414). -/
def configured (opc : Nat) : Bool :=
  [0x02, 0x03, 0x04, 0x05, 0x07, 0x0D, 0x12, 0x13, 0x24, 0x25, 0x32, 0x33, 0x34, 0x35, 0x38, 0x39, 0x40, 0x42, 0x52, 0x53, 0x57,
    0x58, 0x5A].contains opc || decide (0x43 ≤ opc ∧ opc ≤ 0x4C) || decide (0x60 ≤ opc ∧ opc ≤ 0x88)
    || decide (0xA0 ≤ opc ∧ opc ≤ 0xA6)

/-- R105: the attribute entry that LIT reads. -/
def litIndex (w : BitVec 32) : Nat := if configured (wOPC w) then wATR w + 1 else wATR w

/-- R143: the kinds of "any". -/
def anyKinds : List Kind := [.data, .tile, .fin, .bound]

/-- R143, R150, R172, R176, R177, R187, R204, R241, R288, R294, R313, R414, R423: the kinds that operand A of an operator takes. -/
def kindsA (opc : Nat) (cfg : Word) : List Kind :=
  if [0x06, 0x0E, 0x0F, 0x14, 0x15, 0x52, 0x53, 0x54, 0x55].contains opc then [.data]
  else if 0x20 ≤ opc ∧ opc ≤ 0x42 then [.data]
  else if 0x43 ≤ opc ∧ opc ≤ 0x4C then (if opc = 0x4A then anyKinds else [.data])
  else if [0x50, 0x51, 0x56, 0xA0, 0xA1, 0xA2, 0xA5].contains opc then [.tile]
  else if opc = 0x83 then (if field cfg 0 2 = 0 then [.data] else [.tile])
  else if opc = 0x88 then anyKinds
  else if [0x66, 0x67, 0x84, 0x86, 0x87].contains opc then [.tile]
  else if 0x75 ≤ opc ∧ opc ≤ 0x82 then [.tile]
  else if 0x60 ≤ opc ∧ opc ≤ 0x88 then [.data, .tile]
  else anyKinds

/-- The kinds that operand B of an operator takes. -/
def kindsB (opc : Nat) (cfg : Word) : List Kind :=
  if [0x04, 0x05, 0x40].contains opc then [.bound]
  else if [0x01, 0x08, 0x09, 0x43, 0x45, 0x4A, 0x4B, 0x4C, 0x50, 0x51, 0x54, 0x56].contains opc then anyKinds
  else if [0x44, 0x52, 0xA0, 0xA1, 0xA6, 0x84].contains opc then [.tile]
  else if opc = 0x49 then (if field cfg 10 2 = 3 then [.tile] else [.data])
  else if opc = 0x86 then [.data]
  else if opc = 0x87 then (if field cfg 0 2 = 0 then [.data] else [.tile])
  else if 0x60 ≤ opc ∧ opc ≤ 0x88 then [.data, .tile]
  else [.data]

/-- R143: a POISON token satisfies every operand. -/
def kindFits (ks : List Kind) (k : Kind) : Bool := k == .poison || ks.contains k

/-! Units (R149, R186, R235) -/

inductive Unit' where
  | scalar
  | divider
  | addressGen
  | port
  | vector
  | special
  | matrix
  deriving DecidableEq, Repr

/-- The unit's place in an element's busy list. -/
def Unit'.index : Unit' → Nat
  | .scalar => 0
  | .divider => 1
  | .addressGen => 2
  | .port => 3
  | .vector => 4
  | .special => 5
  | .matrix => 6

/-- R149, R186, R235, R288: the unit that an operator uses. -/
def unitOf (opc : Nat) : Unit' :=
  if opc = 0x24 ∨ opc = 0x25 then .divider
  else if opc = 0x40 then .addressGen
  else if (0x43 ≤ opc ∧ opc ≤ 0x4C) ∨ (0x52 ≤ opc ∧ opc ≤ 0x55) then .port
  else if 0x77 ≤ opc ∧ opc ≤ 0x7E then .special
  else if 0x60 ≤ opc ∧ opc ≤ 0x88 then .vector
  else if 0xA0 ≤ opc then .matrix
  else .scalar

/-- Memory-port operators (R235, R294, R313, R414). -/
def portOp (opc : Nat) : Bool := (unitOf opc) == .port

/-! Operand tokens -/

/-- R57, R60 item 3: a token of its frame's current generation. -/
def genFits (s : State) (e : Nat) (c : Ctx) (t : Tok) : Bool := s.genAt c.plid t.frame.toNat (clusterOfElem e) == t.gen

/-- R365, R368, R57, R60 item 3: a token of a frame that may fire at this context: its GEN is current, its frame neither being killed nor rolled
back, nor paused here by a debugger without a step budget left. -/
def mayFire (s : State) (e : Nat) (c : Ctx) (t : Tok) : Bool :=
  let fr := s.frameOf c.plid t.frame.toNat
  genFits s e c t && !(fr.st == .killing || fr.st == .rolling)
    && !c.pauseReq.any (fun q => q.1 == t.frame.toNat && q.2)
    && (!c.paused.contains t.frame.toNat || decide (0 < Tab.getD c.budget t.frame.toNat 0))

/-- R60 item 2: unconsumed tokens of a fitting kind on an input port of the stream network, oldest first. -/
def waiting (ok : Tok → Bool) (c : Ctx) (port : Nat) (ks : List Kind) : List MsEntry :=
  c.ms.filter (fun m => m.st == .idle && !m.net && m.tok.port.toNat == port && kindFits ks m.tok.kind && ok m.tok)

/-- R60 item 3: two tokens match. -/
def tokensMatch (a b : Tok) : Bool :=
  a.gen == b.gen && a.frame == b.frame && a.iter == b.iter && (a.spec == b.spec || a.spec == 0 || b.spec == 0)

/-- R60 item 3: two pairs have one generation, frame and iteration. -/
def sameTrip (p q : MsEntry × MsEntry) : Bool :=
  p.1.tok.gen == q.1.tok.gen && p.1.tok.frame == q.1.tok.frame && p.1.tok.iter == q.1.tok.iter

/-- R61: how a pair ranks among the pairs that match: its iteration by the moment at which a pair of it was first complete; then equal SPEC, a committed
partner, the oldest arrivals. (DEDUCED, unsafe: log 113.) -/
def pairKey (ps : List (MsEntry × MsEntry)) (p : MsEntry × MsEntry) : List Nat :=
  let done (q : MsEntry × MsEntry) : Nat := max q.1.ord q.2.ord
  [((ps.filter (sameTrip p)).map done).foldl min (done p), if p.1.tok.spec == p.2.tok.spec then 0 else 1,
    if p.1.tok.spec == 0 || p.2.tok.spec == 0 then 0 else 1, done p, min p.1.ord p.2.ord]

/-- Lexicographic order. -/
def lexLt : List Nat → List Nat → Bool
  | [], _ => false
  | _, [] => false
  | a :: l, b :: r => decide (a < b) || (a == b && lexLt l r)

/-- The least element by a key. -/
def leastBy {α : Type} (key : α → List Nat) : List α → Option α
  | [] => none
  | a :: l =>
    match leastBy key l with
    | none => some a
    | some b => if lexLt (key b) (key a) then some b else some a

/-- The matched pair of two ports among those that have what else they need. -/
def choosePair (as bs : List MsEntry) (ok : MsEntry × MsEntry → Bool) : Option (MsEntry × MsEntry) :=
  let ps := (as.flatMap (fun a => (bs.filter (fun b => tokensMatch a.tok b.tok)).map (fun b => (a, b)))).filter ok
  leastBy (pairKey ps) ps

/-- The oldest of a list of tokens. -/
def oldest (l : List MsEntry) : Option MsEntry := leastBy (fun m => [m.ord]) l

/-- R152: the window of a grant-bounded LCARRY lets a token pass. -/
def lcarryOpen (iw : Nat) (sw : Word) (t : Tok) : Bool :=
  bit sw 63 && decide ((outer iw t.iter + 1 + 2 ^ (16 - iw) - field sw 0 16 % 2 ^ (16 - iw)) % 2 ^ (16 - iw) < field sw 48 6)

/-- R161: the lowest colour of CM that is not in use. -/
def freeColour (cm sw : Word) : Option Nat := (List.range 7).find? (fun k => bit cm k && !bit sw k)

/-- R170: the context occupies its event cluster. -/
def atEventCluster (e : Nat) (c : Ctx) : Bool := c.evcl == clusterOfElem e

/-- R168: an event bit of a cluster. -/
def eventBit (s : State) (c k : Nat) : Bool := bit (vget (s.seqOf c).evb (k % 256 / 64) 0) (k % 64)

/-- R169: an event bit of a cluster as it stood at the start of its element cycle. -/
def startBit (s : State) (c k : Nat) : Bool := bit (vget (s.clusterOf c).evAt (k % 256 / 64) 0) (k % 64)

/-- R168, R169: EVWAIT's condition, judged on the bit as it stood at the start of the element cycle; a bit that an EVWAIT of the same cycle has cleared is
not cleared again. -/
def evwaitMet (s : State) (e : Nat) (c : Ctx) (cfg sw : Word) : Bool :=
  let k := field cfg 0 8
  !atEventCluster e c || (if bit cfg 8 then startBit s c.evcl k && eventBit s c.evcl k else startBit s c.evcl k == !bit sw 0)

/-- R207: the scale tokens of one operand: the oldest `g` on a scale port with the operand's BTAG that match its tag. -/
def scaleTokens (ok : Tok → Bool) (c : Ctx) (port g : Nat) (t tag : Tok) : Option (List MsEntry) :=
  let l := c.ms.filter (fun m => m.st == .idle && m.net && m.tok.port.toNat == port && kindFits [.data] m.tok.kind
    && m.tok.btag == t.btag && tokensMatch m.tok tag && ok m.tok)
  if g ≤ l.length then some (l.take g) else none

/-- R54, R122: the column multiplier CM of a format. -/
def colMult (fmt : Nat) : Nat :=
  match fmt with
  | 3 | 4 | 6 | 7 => 2
  | 5 => 4
  | _ => 1

/-- R122: the bits of a format's element. -/
def fmtBits (f : Nat) : Nat :=
  match f with
  | 0x0 => 32
  | 0x1 => 16
  | 0x2 => 16
  | 0x3 => 8
  | 0x4 => 8
  | 0x5 => 4
  | 0x6 => 8
  | 0x7 => 8
  | 0x8 => 32
  | 0x9 => 32
  | 0xA => 64
  | 0xB => 64
  | 0xC => 24
  | _ => 8

/-- R54: rows and columns of a descriptor. -/
def dRows (d : Word) : Nat := dROWSM1 d + 1
def dCols (d : Word) : Nat := (dCOLSM1 d + 1) * colMult (dFMT d)

/-- R54: the byte count of a shape in a format. -/
def shapeBytes (f rows cols : Nat) : Nat := rows * cols * fmtBits f / 8

/-- R61: the results' tag: that of the operands, with the nonzero colour if either has one. -/
def mergeTag (a b : Tok) : Tok := if a.spec = 0 then { a with spec := b.spec } else a

/-- R146: the operators marked Held. -/
def heldOp (opc : Nat) : Bool := opc == 0x04 || opc == 0x05 || opc == 0x40

/-- R157: the start of a run takes with its start token every BOUND token that waits for its frame: the latest as operand B, the others beside it. -/
def startSite (t : Site) (start : Tok) (bounds : List MsEntry) : Site :=
  let l := bounds.filter (fun m => m.tok.frame == start.frame && m.tok.gen == start.gen)
  match l.getLast? with
  | none => t
  | some m => { t with b := some m.ord, scales := (l.filter (fun v => v.ord != m.ord)).map (·.ord) }

/-- R60 item 4, R207: the scale tokens of a pair of MMAS operands, where they have arrived; of an A whose columns are no multiple of 32, which faults (R205), the
whole groups count. (DESIGN CHOICE, unsafe: log 127.) -/
def pairScales (ok : Tok → Bool) (c : Ctx) (p : MsEntry × MsEntry) : Option (List MsEntry) :=
  let d := if p.1.tok.kind == .tile then p.1.tok.payload else p.2.tok.payload
  let g := (dCOLSM1 d + 1) * colMult (dFMT d) / 32
  let tag := mergeTag p.1.tok p.2.tok
  match scaleTokens ok c 0 g p.1.tok tag, scaleTokens ok c 1 g p.2.tok tag with
  | some l, some r => some (l ++ r)
  | _, _ => none

/-- R61: no earlier arrival of the same tag waits beside an entry. -/
def firstOfTag (l : List MsEntry) (m : MsEntry) : Bool :=
  !l.any (fun n => decide (n.ord < m.ord) && n.tok.gen == m.tok.gen && n.tok.frame == m.tok.frame && n.tok.iter == m.tok.iter && n.tok.spec == m.tok.spec
    && n.tok.btag == m.tok.btag)

/-- R61, R207: an MMAS pair whose scale tokens have arrived, each operand the first arrival of its tag. -/
def scaledPair (ok : Tok → Bool) (c : Ctx) (as bs : List MsEntry) (p : MsEntry × MsEntry) : Bool :=
  firstOfTag as p.1 && firstOfTag bs p.2 && (pairScales ok c p).isSome

/-- R60 items 2 to 4 with R146: the operand set of slot `k` among the tokens that `ok` admits; a reserved operator or tag action (R113), which no configuration
lets into a slot, has none. -/
def operandsAmong (ok : Tok → Bool) (s : State) (e x k : Nat) : Option Site :=
  let c := s.ctxOf e x
  let w := vget c.words k vacant
  let opc := wOPC w
  let cfg := vget c.attr (wATR w) 0
  let sw := vget c.sw k 0
  let sa := wSA w
  let sb := wSB w
  let as := if sa < 12 then waiting ok c sa (kindsA opc cfg) else []
  let bs := if sb < 12 then waiting ok c sb (kindsB opc cfg) else []
  let one (m : MsEntry) (isB : Bool) : Site :=
    { e := e, x := x, k := k, a := if isB then none else some m.ord, b := if isB then some m.ord else none, scales := [] }
  let either (as' bs' : List MsEntry) : Option Site :=
    match oldest as', oldest bs' with
    | some a, some b => if b.ord < a.ord then some (one b true) else some (one a false)
    | some a, none => some (one a false)
    | none, some b => some (one b true)
    | none, none => none
  if (readElem w).isNone || decide (12 ≤ wTA w) || w == vacant then none
  else if opc = 0x01 then either as bs
  else if opc = 0x02 ∧ bit cfg 1 then either (as.filter (fun m => lcarryOpen (ccwIW c.ccw) sw m.tok)) bs
  else if opc = 0x0D then either (if (freeColour cfg sw).isSome || ccwCXF c.ccw then as else []) bs
  else if heldOp opc then
    match c.ms.find? (fun m => m.st == .start k) with
    | some m => if ok m.tok && bit sw 63 then some (one m false) else none
    | none => (oldest as).map (fun m => if bit sw 63 then one m false else startSite (one m false) m.tok bs)
  else if opc = 0x58 ∧ !evwaitMet s e c cfg sw then none
  else
    let as' := if opc = 0x03 then as.filter (fun m => m.tok.spec == 0) else as
    let bs' := if opc = 0x03 then bs.filter (fun m => m.tok.spec == 0) else bs
    if sa < 12 ∧ sb < 12 then
      (choosePair as' bs' (fun p => opc != 0xA1 || scaledPair ok c as' bs' p)).map (fun p =>
        { e := e, x := x, k := k, a := some p.1.ord, b := some p.2.ord
          scales := if opc = 0xA1 then ((pairScales ok c p).getD []).map (·.ord) else [] })
    else if sa < 12 then (oldest as').map (fun m => one m false)
    else if sb < 12 then (oldest bs').map (fun m => one m true)
    else none

/-- R60, R368: the operand set of a slot, of tokens whose frames may fire. -/
def operandSet (s : State) (e x k : Nat) : Option Site := operandsAmong (mayFire s e (s.ctxOf e x)) s e x k

/-! Readiness -/

/-- Positions of a route's FIFO that are taken, those reserved by firings in progress among them (R66). -/
def fifoUsed (c : Ctx) (r : Nat) : Nat :=
  (vget c.fifo r []).length + (c.inflight.map (fun f => match f.out with
    | .emit rs _ _ => if f.cancel then 0 else rs.countP (fun t => t.dest == r)
    | .fault _ _ => 0)).sum

/-- R60 item 5: the routes that D0 and D1 name have free positions, two of them where both name one. -/
def destRoom (c : Ctx) (w : BitVec 32) : Bool :=
  let d0 := wD0 w
  let d1 := wD1 w
  (decide (14 ≤ d0) || decide (fifoUsed c d0 + (if d1 = d0 then 2 else 1) ≤ 4)) && (decide (14 ≤ d1) || decide (fifoUsed c d1 + 1 ≤ 4))

/-- R361: a route of the operator still waits for the marker of a cut of the frame. -/
def markerDue (c : Ctx) (f : Nat) (w : BitVec 32) : Bool :=
  c.stagings.any (fun z => z.frame == f && (z.fwd.contains (wD0 w) || z.fwd.contains (wD1 w)))

/-- R363: the bytes of a checkpoint in the staging granules; none of one that has been appended, whose slot-state words are gone. -/
def checkpointSize (z : Staging) : Nat :=
  if z.sw.isEmpty then 0
  else 144 + z.accs.length + 32 * z.entries.length + 4096 * z.entries.countP (fun m => m.1.tok.tile.isSome)

/-- R363: a checkpoint larger than the staging granules, or one that waits behind an earlier cut's, stops the context from firing. -/
def stagingStops (c : Ctx) : Bool :=
  decide (1 < c.stagings.countP (fun z => !z.sw.isEmpty)) || c.stagings.any (fun z => decide (pSPG c.part * 4096 < checkpointSize z))

/-- R60 item 6, R180, R235: the free tile slots that a firing of an operator needs: one for each TILE result that it produces, wherever it goes, but for the status tile of
MCST, which needs one where it is routed (R414). (DEDUCED, safe: log 30.) -/
def slotsNeeded (w : BitVec 32) (cfg : Word) : Nat :=
  let opc := wOPC w
  if opc = 0x43 then 1
  else if opc = 0x52 then (if wD1 w < 14 then 1 else 0)
  else if opc = 0x76 then 2
  else if opc = 0x7F ∨ opc = 0x80 then (if field cfg 0 2 = 2 then 0 else 1)
  else if opc = 0x86 then (if field cfg 0 2 = 0 then 0 else 1)
  else if (0x60 ≤ opc ∧ opc ≤ 0x88) ∨ opc = 0xA4 then 1
  else 0

/-- The stream of an address token (R175). -/
def streamOf (a : Word) : Nat := field a 61 3

/-- Memory-port entries that firings in progress will create. -/
def comingEntries (el : Elem) : List MemEntry :=
  el.ctx.toList.flatMap (fun c => c.inflight.flatMap (fun f => match f.out with
    | .emit _ _ posts => posts.filterMap (fun p => match p with
        | .entry m => some m
        | _ => none)
    | .fault _ _ => []))

/-- R229: a POOL line whose virtual element is resident in a live context. -/
def poolThere (s : State) (l : Loc) : Bool :=
  match l with
  | .pool p vp el _ =>
    match holderOf s p vp el with
    | some (e, x) => (s.ctxOf e x).st == .live
    | none => false
  | _ => true

/-! What an entry of the memory port accesses (R240, R241, R245) -/

def mOpc (m : MemEntry) : Nat := wOPC m.wrd
def mRing (m : MemEntry) : Bool := mOpc m == 0x54 || mOpc m == 0x55


/-- R240: the access size of a scalar or atomic entry. -/
def mSize (m : MemEntry) : Nat := if mOpc m = 0x53 || mRing m then 8 else 2 ^ field m.attr 10 2

/-- R245: the rows of a tile access: where each starts and its bytes. -/
def tileRows (va rows rowBytes : Nat) (rstr : Int) : List (Nat × Nat) :=
  (List.range rows).map (fun i => ((((va : Int) + i * rstr) % 2 ^ 58).toNat, rowBytes))

/-- R240 RSTR. -/
def mRstr (m : MemEntry) : Int := signed 24 (field m.attr 24 24)

/-- The shape that LDT's attribute gives, as a descriptor with MSLOT 0xFF (R245). -/
def ldtDesc (w : Word) : Word := word (at' (field w 48 16) 48 + at' 0xFF 32)

/-- R241: the footprint of an entry, in the order in which its bytes stand in its data. -/
def footprint (m : MemEntry) : List (Nat × Nat) :=
  let lines (a n : Nat) : List (Nat × Nat) := (List.range n).map (fun i => ((a / 128 * 128 + 128 * i) % 2 ^ 58, 128))
  match mOpc m with
  | 0x43 =>
    let d := ldtDesc m.attr
    tileRows m.va (dRows d) (dCols d * fmtBits (dFMT d) / 8) (mRstr m)
  | 0x44 =>
    let d := m.opB.tok.payload
    tileRows m.va (dRows d) (dCols d * fmtBits (dFMT d) / 8) (mRstr m)
  | 0x4A => []
  | 0x4B => lines m.va (field m.attr 24 24 + 1)
  | 0x4C => lines m.va (field m.attr 36 12 + 1)
  | 0x52 => [(m.va, (m.opB.tok.tile.getD []).length)]
  | 0x57 => []
  | 0x58 => []
  | _ => [(m.va, mSize m)]

/-- The footprint line by line (R225). -/
def pieces (m : MemEntry) : List (Nat × Nat) :=
  (footprint m).flatMap (fun r => (splitLines (r.2 + 1) r.1 r.2).map (fun c => (c.1 % 2 ^ 58, c.2)))

/-- R225: an entry not yet translated has a line outside its stream's own entry, which it refills. -/
def refills (s : State) (el : Elem) (m : MemEntry) : Bool :=
  match rootOf s m.plid with
  | some r => !(pieces m).all (fun p => (vget el.streams (streamOf m.opA.tok.payload) none).any (fun l => l.covers r.2 p.1))
  | none => false

/-- R225, R229: an entry for which its stream accepts nothing further: it refills the stream's entry, or waits for the virtual element that its POOL line names. -/
def holdsStream (s : State) (el : Elem) (m : MemEntry) : Bool :=
  !m.dead && wOPC m.wrd != 0x4A && wOPC m.wrd != 0x57 && wOPC m.wrd != 0x58
    && (m.st == .walking || (m.st == .created && refills s el m) || (m.st == .translated && !m.lines.all (fun l => poolThere s l.loc)))

/-- R225, R235: the memory port takes another entry of an address's stream: it has a free entry, and the stream accepts. -/
def portTakes (s : State) (el : Elem) (stream : Option Nat) : Bool :=
  decide (el.port.length + (comingEntries el).length < 64) &&
    match stream with
    | some n => !(el.port.any (fun m => holdsStream s el m && streamOf m.opA.tok.payload == n))
    | none => true

/-- An entry of the matching store by its arrival number. -/
def entryOf (c : Ctx) (o : Option Nat) : Option MsEntry := o.bind (fun n => c.ms.find? (fun m => m.ord == n))

/-- R111: a firing of the slot has still to write its slot-state word: it is in progress, or its memory-port entry, whose result goes to SELF, stands. -/
def slotPending (el : Elem) (c : Ctx) (x k : Nat) (w : BitVec 32) : Bool :=
  c.inflight.any (fun f => f.k == k) || ((wD0 w == 14 || wD1 w == 14) && el.port.any (fun m => m.x == x && m.k == k && !m.dead))

/-- R60 item 7, R149: a unit is held in the element's cycle. -/
def unitBusy (el : Elem) (u : Unit') : Bool := (vget el.busy u.index []).any (fun h => decide (h.1 ≤ el.cyc ∧ el.cyc < h.2))

/-- R60 items 1 and 5 to 7 for a matched slot, R111 and R251: it is ready. -/
def readyAt (s : State) (t : Site) : Bool :=
  let el := s.elemOf t.e
  let c := s.ctxOf t.e t.x
  let w := vget c.words t.k vacant
  let opc := wOPC w
  let cfg := vget c.attr (wATR w) 0
  let addr := match entryOf c t.a with
    | some m => m.tok.payload
    | none => if wSA w = 12 then vget c.attr (litIndex w) 0 else if wSA w = 13 then vget c.sw t.k 0 else 0
  let poisoned := ((entryOf c t.a).toList ++ (entryOf c t.b).toList).any (fun m => m.tok.kind == .poison)
  c.st == .live && ccwPRIO c.ccw != 0 && destRoom c w && !stagingStops c
    && !((entryOf c t.a).toList ++ (entryOf c t.b).toList).any (fun m => markerDue c m.tok.frame.toNat w)
    && (poisoned || decide (slotsNeeded w cfg ≤ (freeSlots el t.x c).length))
    && !unitBusy el (unitOf opc)
    && !slotPending el c t.x t.k w
    && (!portOp opc || portTakes s el (if opc = 0x4A then none else some (streamOf addr)))
    && (!(opc == 0x57 || opc == 0x58) || atEventCluster t.e c || portTakes s el none)
    && (!(opc == 0xA2) || !el.port.any (fun m => m.x == t.x && !m.dead && wOPC m.wrd == 0x4C))

/-- The matched slots of an element's live contexts. -/
def matchedSites (s : State) (e : Nat) : List Site :=
  (List.range 64).filterMap (fun n => if (s.ctxOf e (n / 16)).st == .live then operandSet s e (n / 16) (n % 16) else none)

/-! The arbiter (R63) -/

/-- R63: the matched slots of a context that holds its tokens: a pause of a frame (R368), and a save or a move that drains the context, leave them matched. -/
def standingSites (s : State) (e x : Nat) : List Site :=
  let c := s.ctxOf e x
  if c.st == .live || c.st == .draining then
    (List.range 16).filterMap (fun k => (operandSet s e x k).or (operandsAmong (genFits s e c) s e x k))
  else []

/-- Order and Wait of a slot. -/
def orderOf (c : Ctx) (k cyc : Nat) : Int × Nat :=
  match Tab.get? c.order k with
  | some (o, w, _) => (o, w)
  | none => (cyc, 0)

/-- R63: what the operand set of a matched slot is for Order and Wait: its tokens; for a Held slot its start token. -/
def setKey (c : Ctx) (t : Site) : List Nat :=
  if heldOp (wOPC (vget c.words t.k vacant)) then t.a.toList else t.a.toList ++ t.b.toList ++ t.scales

/-- R63: Order and Wait brought up to the element's cycle: a slot newly matched, or matched by another operand set, starts at it, a slot no longer matched
is forgotten, and Wait counts only while the context's PRIO is not 0. -/
def updateOrder (s : State) (e : Nat) : State :=
  let el := s.elemOf e
  let fresh (c : Ctx) (t : Site) : Nat × Int × Nat × List Nat := (t.k, el.cyc, 0, setKey c t)
  let upd (x : Nat) (c : Ctx) : Ctx :=
    { c with order := ((standingSites s e x).map (fun t =>
        match Tab.get? c.order t.k with
        | some (o, w, l) =>
          if l = setKey c t then (t.k, o, (if ccwPRIO c.ccw = 0 then w else w + (el.cyc - el.lastArb)), l) else fresh c t
        | none => fresh c t)) }
  s.setElem e { el with
    lastArb := el.cyc
    ctx := Vector.ofFn (fun i : Fin 4 => upd i.val (vget el.ctx i.val ctxFree)) }

/-- R63 Choose, among the ready sites of an element whose Order and Wait are up to date. -/
def chooseSite (s : State) (e : Nat) : Option Site :=
  let el := s.elemOf e
  let cand := (matchedSites s e).filter (readyAt s)
  let prio (t : Site) : Nat := ccwPRIO (s.ctxOf e t.x).ccw
  let wait (t : Site) : Nat := (orderOf (s.ctxOf e t.x) t.k el.cyc).2
  let order (t : Site) : Int := (orderOf (s.ctxOf e t.x) t.k el.cyc).1
  let aged := cand.filter (fun t => decide (4096 ≤ wait t) &&
    !cand.any (fun u => decide (prio t < prio u) && ccwEXCL (s.ctxOf e u.x).ccw))
  if !aged.isEmpty then
    let m := (aged.map wait).foldl max 0
    leastBy (fun t => [t.x, t.k]) (aged.filter (fun t => wait t == m))
  else
    let p := (cand.map prio).foldl max 0
    let top := cand.filter (fun t => prio t == p)
    let first := (top.map order).foldl min (el.cyc : Int)
    leastBy (fun t => [(order t - first).toNat, (16 * t.x + t.k + 64 - (el.rr + 1) % 64) % 64]) top

/-! What a firing is given -/

/-- A firing as its operator sees it: where it is, the context at its start, the word, its operands, the results' tag before the tag
action (R61), its settings a[ATR] and its slot-state word. -/
structure Fire where
  e : Nat
  x : Nat
  k : Nat
  el : Elem
  c : Ctx
  w : BitVec 32
  a : Operand
  b : Operand
  scales : List Tok
  tag : Tok
  cfg : Word
  sw : Word
  deriving DecidableEq, Repr

/-- R104: an operand that is no token: a DATA payload. -/
def plainOperand (v : Word) : Operand := { tok := { tokZero with payload := v }, slot := none, ord := 0, fromMs := false }

/-- R104, R105: the operand of a source code; 0 for operand B of a firing that takes one token, on A (R146). (DESIGN CHOICE, unsafe: log 128.) -/
def sourceOperand (c : Ctx) (w : BitVec 32) (k code : Nat) (o : Option Nat) : Operand :=
  match entryOf c o with
  | some m => { tok := m.tok, slot := m.slot, ord := m.ord, fromMs := true }
  | none =>
    if code = 12 then plainOperand (vget c.attr (litIndex w) 0)
    else if code = 13 then plainOperand (vget c.sw k 0)
    else plainOperand 0

/-- The firing of a site. The first nonzero colour of its tokens, scale tokens included, is its own (R207). (DESIGN CHOICE, unsafe: log 130.) -/
def fireOf (s : State) (t : Site) : Fire :=
  let c := s.ctxOf t.e t.x
  let w := vget c.words t.k vacant
  let a := sourceOperand c w t.k (wSA w) t.a
  let b := sourceOperand c w t.k (wSB w) t.b
  let sc := t.scales.filterMap (fun n => (entryOf c (some n)).map (·.tok))
  let tag0 := if a.fromMs then (if b.fromMs then mergeTag a.tok b.tok else a.tok) else b.tok
  let tag1 := if heldOp (wOPC w) then a.tok else sc.foldl mergeTag tag0
  { e := t.e, x := t.x, k := t.k, el := s.elemOf t.e, c := c, w := w, a := a, b := b, scales := sc,
    tag := { tag1 with tile := none, slotRef := none, cust := none, payload := 0, kind := .data, level := 0, port := 0,
                       btag := if a.fromMs then a.tok.btag else 0 },
    cfg := vget c.attr (wATR w) 0, sw := vget c.sw t.k 0 }

/-- R107: the tag action of a slot on a routed result. -/
def tagAction (F : Fire) (t : Tok) : Tok :=
  let iw := ccwIW F.c.ccw
  let b := F.b.tok.payload
  match wTA F.w with
  | 1 => { t with iter := mkIter iw (outer iw t.iter) (inner iw t.iter + 1) }
  | 2 => { t with iter := mkIter iw (outer iw t.iter + 1) 0 }
  | 3 => { t with iter := mkIter iw (outer iw t.iter) 0 }
  | 4 => { t with iter := 0 }
  | 5 => { t with iter := BitVec.ofNat 16 (field b 0 16) }
  | 6 => { t with spec := BitVec.ofNat 3 (field (vget F.c.attr 15 0) (3 * F.k) 3) }
  | 7 => { t with spec := 0 }
  | 8 => if t.kind == .fin then { t with level := BitVec.ofNat 3 (min (t.level.toNat + 1) 7) } else t
  | 9 => if t.kind == .fin then { t with level := BitVec.ofNat 3 (t.level.toNat - 1) } else t
  | 10 => { t with frame := BitVec.ofNat 10 (field b 0 10), gen := BitVec.ofNat 2 (field b 10 2), iter := 0 }
  | 11 => { t with frame := BitVec.ofNat 10 (field b 0 10), gen := BitVec.ofNat 2 (field b 10 2),
                   iter := BitVec.ofNat 16 (field b 12 16) }
  | _ => t

/-! Results -/

/-- A token of the firing's tag. -/
def Fire.tok (F : Fire) (k : Kind) (p : Word) : Tok := { F.tag with kind := k, payload := p }

/-- R106, R107: a result on destination `d`: nowhere for DROP, the tag action for a route. -/
def Fire.put (F : Fire) (d : Nat) (t : Tok) : List Emit :=
  if d = 15 then [] else if d = 14 then [{ dest := d, tok := t }] else [{ dest := d, tok := tagAction F t }]

/-- R106: a result whose tag its operator's entry states. -/
def Fire.putRaw (_F : Fire) (d : Nat) (t : Tok) : List Emit := if d = 15 then [] else [{ dest := d, tok := t }]

def Fire.d0 (F : Fire) : Nat := wD0 F.w
def Fire.d1 (F : Fire) : Nat := wD1 F.w

/-- R144: a result on D0, copied to D1 where that is routed. -/
def Fire.both (F : Fire) (t : Tok) : List Emit := F.put F.d0 t ++ F.put F.d1 t

/-- A DATA result on D0 and, as copy, on D1. -/
def Fire.data (F : Fire) (v : Word) : FireOut := .emit (F.both (F.tok .data v)) none []

/-- R144: an operand passed on: its kind, payload, LEVEL and tile as they stand, with the results' tag; a tile keeps its slot. -/
def Fire.pass (F : Fire) (o : Operand) : Tok :=
  { F.tag with kind := o.tok.kind, level := o.tok.level, payload := o.tok.payload, btag := o.tok.btag, tile := o.tok.tile,
               slotRef := o.slot }

/-- R245, R255: the bytes of the standing slot that masks an STT's tile, one bit for each element, as they stand when the firing starts. -/
def Fire.maskBytes (F : Fire) : List Byte :=
  let ms := dMSLOT F.b.tok.payload
  if wOPC F.w = 0x44 ∧ ms < F.c.standing then memRead F.c.pool (slotOff F.c ms) (((F.b.tok.tile.getD []).length + 7) / 8) else []

/-- R235: the memory-port entry that a firing creates at `va`; `res` is the tile slot kept for its result. -/
def Fire.entry (F : Fire) (va : Nat) (res : Option Nat) : MemEntry :=
  { id := 0, x := F.x, k := F.k, wrd := F.w, attr := F.cfg, plid := F.c.plid, tag := F.tag, opA := F.a, opB := F.b, va := va,
    lines := [], st := .created, hidden := [], dead := false, res := res, mask := F.maskBytes, todo := [], taken := [], fwd := [],
    data := [], out0 := F.sw, out1 := 0, poison := 0,
    win := Tab.getD F.c.wins F.tag.frame.toNat 0, acks := [] }

/-! POISON (R336, R337) -/

/-- R337, R144: the operators that a POISON operand makes fault. -/
def poisonSink (w : BitVec 32) (cfg : Word) : Bool :=
  let opc := wOPC w
  decide (0x43 ≤ opc ∧ opc ≤ 0x58) || decide (0xA0 ≤ opc) || [0x04, 0x05, 0x0D, 0x40, 0x5A].contains opc
    || (opc == 0x02 && bit cfg 1) || wD0 w == 14 || wD1 w == 14

/-- R336: a POISON operand as DATA with payload 0. -/
def cleanOperand (o : Operand) : Operand :=
  if o.tok.kind == .poison then { o with tok := { o.tok with kind := .data, payload := 0, tile := none }, slot := none } else o

/-- R336: a result of a poisoned firing. -/
def poisonTok (v : Word) (t : Tok) : Tok :=
  match t.kind with
  | .data | .tile | .bound => { t with kind := .poison, level := 0, payload := v, tile := none, slotRef := none }
  | _ => t

/-- The tile slot in which an operand's tile stands, with the tile's bytes: a token's, or the standing slot that a vector operator's LIT names (R178). -/
def Fire.tileAt (F : Fire) (o : Operand) (code : Nat) : List (Nat × Nat) :=
  let opc := wOPC F.w
  let d := o.tok.payload
  match o.slot with
  | some n => [(slotOff F.c n, (o.tok.tile.getD []).length)]
  | none =>
    if 0x60 ≤ opc ∧ opc ≤ 0x88 ∧ code = 12 ∧ bit F.cfg 10 then [(slotOff F.c (dTSLOT d), shapeBytes (dFMT d) (dRows d) (dCols d))] else []

/-- R184: the standing slot whose bits mask an operand's elements. -/
def Fire.maskAt (F : Fire) (o : Operand) : List (Nat × Nat) :=
  let d := o.tok.payload
  if dMSLOT d < F.c.standing then [(slotOff F.c (dMSLOT d), (dRows d * dCols d + 7) / 8)] else []

/-- The accumulators and the weight buffer that a matrix operator reads (R206, R208, R209). -/
def Fire.laneReads (F : Fire) : List (Nat × Nat) :=
  let opc := wOPC F.w
  let acc (n : Nat) : Nat × Nat := ((pMSG F.c.part + pTSG F.c.part + n) * 4096, 4096)
  (if [0xA0, 0xA1, 0xA2, 0xA4, 0xA5, 0xA6].contains opc then [acc (field F.cfg 28 4)] else [])
    ++ (if opc = 0xA6 ∧ !bit F.cfg 47 then [acc (field F.cfg 24 4)] else [])
    ++ (if opc = 0xA2 then [((pMSG F.c.part + pTSG F.c.part + pACG F.c.part) * 4096, pWBG F.c.part * 4096)] else [])

/-- The bytes of its context's pool that a firing reads: place and count. An operand of which only the arrival matters is not read. -/
def Fire.reads (F : Fire) : List (Nat × Nat) :=
  let opc := wOPC F.w
  let readsA := !([0x4A, 0x88, 0xA3, 0xA4, 0xA6].contains opc)
  let readsB := opc = 0x01 || kindsB opc F.cfg != anyKinds
  (if readsA then F.tileAt F.a (wSA F.w) else []) ++ (if readsB then F.tileAt F.b (wSB F.w) else [])
    ++ (if 0x60 ≤ opc ∧ opc ≤ 0x88 ∧ !bit F.cfg 20 ∧ !(F.tileAt F.a (wSA F.w)).isEmpty then F.maskAt F.a else [])
    ++ (if opc = 0x44 then F.maskAt F.b else []) ++ F.laneReads

/-- A firing in progress, as the view that its operator had of it. -/
def Firing.view (f : Firing) (c : Ctx) : Fire :=
  { e := 0, x := 0, k := f.k, el := elemReset, c := c, w := vget c.words f.k vacant, a := f.opA, b := f.opB, scales := [], tag := f.tag,
    cfg := vget c.attr (wATR (vget c.words f.k vacant)) 0, sw := 0 }

/-- R179, R184, R245: a firing in progress reads tile slot `t` of its context. -/
def slotRead (c : Ctx) (t : Nat) : Bool := c.inflight.any (fun f => (f.view c).reads.any (fun r => r.1 == slotOff c t))

/-- R447, R450: the words of the pool in error that a firing reads. -/
def Fire.badWords (F : Fire) : List Nat := F.c.poolErr.filter (fun k => F.reads.any (fun r => touchesBad [k] 8 r.1 r.2))

/-- R336: the payload of the first POISON operand, taking A, then B, then the scale tokens; where none is POISON, that of the data that a firing reads with an
uncorrectable error, which becomes POISON (R447). (DESIGN CHOICE, safe: log 25.) (DEDUCED, unsafe: log 32.) -/
def Fire.poisonPayload (F : Fire) : Option Word :=
  match (F.a.tok :: F.b.tok :: F.scales).find? (fun t => t.kind == .poison) with
  | some t => some t.payload
  | none => if F.badWords.isEmpty then none else some (Config.badRead F.e F.el.cyc)

/-- R336, R337: what a firing does, given what its operator does with sound operands. (DEDUCED, unsafe: log 129.) -/
def Fire.result (F : Fire) (f : Fire → FireOut) : FireOut :=
  match F.poisonPayload with
  | none => f F
  | some v =>
    if poisonSink F.w F.cfg then .fault cPOISON v
    else
      let G : Fire := { F with a := cleanOperand F.a, b := cleanOperand F.b }
      match f G with
      | .emit rs sw posts => .emit (rs.map (fun r => { r with tok := poisonTok v r.tok })) sw posts
      | .fault _ _ => .emit (G.both (G.tok .poison v)) none []

/-! Starting a firing -/

/-- R149, R186: how long a firing lasts and how long it holds its unit. -/
structure Span where
  len : Nat
  hold : Nat
  deriving DecidableEq, Repr

/-- Class C1: one cycle. -/
def spanOne : Span := ⟨1, 1⟩

/-- R186: the cycles of a firing of class VR before it holds the vector unit. -/
def heldAfter (opc : Nat) : Nat := if 0x7F ≤ opc ∧ opc ≤ 0x81 then 2 else 0

/-- The spans for which a unit is still to be held. -/
def heldSpans (el : Elem) (u : Unit') : List (Nat × Nat) := (vget el.busy u.index []).filter (fun h => decide (el.cyc < h.2))

/-- The tile slots that a firing's outcome already keeps. -/
def outSlots (out : FireOut) : List Nat :=
  match out with
  | .emit rs _ posts => (rs.filterMap (fun r => r.tok.slotRef) ++ posts.filterMap (fun p => match p with
      | .entry m => m.res
      | _ => none)).eraseDups
  | .fault _ _ => []

/-- R180: the tile slots of a firing's TILE results that go nowhere: those that it needed, but for those that its outcome keeps. -/
def spareSlots (el : Elem) (x : Nat) (c : Ctx) (F : Fire) (out : FireOut) : List Nat :=
  match out with
  | .fault _ _ => []
  | .emit _ _ _ =>
    if F.poisonPayload.isSome then []
    else ((freeSlots el x c).filter (fun n => !(outSlots out).contains n)).take (slotsNeeded F.w F.cfg - (outSlots out).length)

/-- R61, R111, R149: the firing of a site starts: its operands are taken, its unit is held, and the outcome stands until it completes. A
slot marked Held keeps its Order (R63). -/
def startFiring (s : State) (t : Site) (F : Fire) (out : FireOut) (sp : Span) : State :=
  let el := s.elemOf t.e
  let c := s.ctxOf t.e t.x
  let cyc := el.cyc
  let used := t.a.toList ++ t.b.toList ++ t.scales
  let ms := c.ms.map (fun m => if used.contains m.ord then { m with st := .firing t.k } else m)
  let opc := wOPC F.w
  let held := heldOp opc
  let fl : Firing :=
    { k := t.k, opc := opc, ends := cyc + sp.len, opA := F.a, opB := F.b, used := used, out := out, tag := F.tag, cancel := false,
      win := Tab.getD c.wins F.tag.frame.toNat 0, spare := spareSlots el t.x c F out }
  let f := F.tag.frame.toNat
  let ord := match Tab.get? c.order t.k with
    | some (o, _, l) => if held then Tab.set c.order t.k (o, 0, l) else Tab.del c.order t.k
    | none => c.order
  let paused := c.paused.contains f
  let c1 := { c with
    ms := ms, inflight := c.inflight ++ [fl], order := ord
    budget := if paused then Tab.set c.budget f (Tab.getD c.budget f 0 - 1) else c.budget
    stepped := if paused then Tab.set c.stepped f (Tab.getD c.stepped f 0 + 1) else c.stepped }
  let el1 := { el with cyc := cyc + 1, rr := 16 * t.x + t.k, busy := vset el.busy (unitOf opc).index (heldSpans el (unitOf opc) ++ [(cyc + heldAfter opc, cyc + heldAfter opc + sp.hold)]) }
  touch ((s.setElem t.e el1).setCtx t.e t.x c1) (clusterOfElem t.e) c.plid f F.tag.gen

/-- R447: the uncorrectable words that a firing reads count at its cluster. -/
def countBadReads (s : State) (F : Fire) : State :=
  if F.badWords.isEmpty then s else s.count (0x1010 + 32 * clusterOfElem F.e) F.badWords.length

/-- An element operator fires at the site that the arbiter chose, if that slot holds its word. (DEDUCED, safe: log 3.) -/
def fire (s : State) (i : Instr) (sp : Fire → Span) (f : Fire → FireOut) : State :=
  match s.site with
  | none => s
  | some t =>
    let F := fireOf s t
    if some F.w == encode i then startFiring (countBadReads { s with site := none } F) t F (F.result f) (sp F) else s

end Sys2Proof.Machine
end

