-- ==== Sys2Proof/Machine/Log.lean ====
section
/-! DEFINITION. The recorder's ring (R351 to R359, R366): entries, reservation, and the logging of a write before it performs. -/

namespace Sys2Proof.Machine

/-- R217 TKEY of a placement's root; 0 without one. -/
def tkeyOf (s : State) (p : Nat) : Nat :=
  match rootOf s p with
  | some r => field r.1 46 13
  | none => 0

/-- Ring bytes from index `i`: the pieces that a wrap leaves (R354). -/
def ringPieces (g : Log) (i n : Nat) : List (Nat × Nat) :=
  let sz := 2 ^ g.lg
  let o := i % sz
  if o + n ≤ sz then [(g.base + o, n)] else [(g.base + o, sz - o), (g.base, n - (sz - o))]

/-- Bytes written into a ring from index `i`; a part of a line that does not pass its check is refused (R406, R412, R450). (DEDUCED, unsafe: log 65.) -/
def ringWrite (s : State) (p : Nat) (g : Log) (i : Nat) (bs : List Byte) : State :=
  (ringPieces g i bs.length).foldl (fun (r : State × List Byte) c =>
    (writeHbmLines (bs.length + 1) r.1 (tkeyOf s p) c.1 (r.2.take c.2), r.2.drop c.2)) (s, bs) |>.1

/-- Bytes of a ring from index `i`. -/
def ringRead (s : State) (g : Log) (i n : Nat) : List Byte := (ringPieces g i n).flatMap (fun c => memRead s.hbm c.1 c.2)

/-- R356: an entry of the log. -/
structure LogEntry where
  va : Nat
  loc : Nat
  win : Nat
  iter : Nat
  elem : Nat
  cs : Nat
  kind : Nat
  undone : Bool
  spec : Nat
  flen : Nat
  data : List Byte
  deriving DecidableEq, Repr

/-- R356: the kinds. -/
def lgSTORE : Nat := 0
def lgATOMIC : Nat := 1
def lgIRREV : Nat := 2
def lgOPEN : Nat := 3
def lgCLOSE : Nat := 4

/-- R356: the bytes that an entry of `n` data bytes occupies. -/
def entrySize (n : Nat) : Nat := 32 + 32 * ((n + 31) / 32)

/-- R356: the bytes of an entry. -/
def entryBytes (l : LogEntry) : List Byte :=
  let n := l.data.length
  leBytes 8 l.va ++ leBytes 8 l.loc ++ leBytes 4 n ++ leBytes 2 l.win ++ leBytes 2 l.iter ++ leBytes 2 l.elem ++ leBytes 1 l.cs
    ++ leBytes 1 (l.kind + at' l.undone.toNat 3 + at' l.spec 4) ++ leBytes 2 l.flen ++ leBytes 2 0 ++ l.data
    ++ List.replicate (entrySize n - 32 - n) 0

/-- R356: the entry whose bytes start at index `i` of a ring. -/
def entryAt (s : State) (g : Log) (i : Nat) : LogEntry :=
  let h := ringRead s g i 32
  let n (o k : Nat) : Nat := leNat ((h.drop o).take k)
  let kb := n 27 1
  { va := n 0 8, loc := n 8 8, win := n 20 2, iter := n 22 2, elem := n 24 2, cs := n 26 1, kind := kb % 8, undone := kb / 8 % 2 == 1,
    spec := kb / 16 % 8, flen := n 28 2, data := ringRead s g (i + 32) (n 16 4) }

/-- The entries of a log from index `i` to `stop`, oldest first, each with its index. -/
def entriesFrom (s : State) (g : Log) (stop : Nat) : Nat → Nat → List (Nat × LogEntry)
  | 0, _ => []
  | fuel + 1, i =>
    if stop ≤ i then []
    else
      let l := entryAt s g i
      (i, l) :: entriesFrom s g stop fuel (i + entrySize l.data.length)

/-- The entries between HEAD and TAIL. -/
def logEntries (s : State) (g : Log) : List (Nat × LogEntry) := entriesFrom s g g.tail ((g.tail - g.head) / 32 + 1) g.head

/-- R354: room for entries of `n` bytes. -/
def logRoom (g : Log) (n : Nat) : Bool := decide (g.tail - g.head + n ≤ 2 ^ g.lg)

/-- R354: an entry is appended at TAIL. -/
def appendEntry (s : State) (p f : Nat) (l : LogEntry) : State :=
  let g := (s.frameOf p f).log
  let bs := entryBytes l
  (ringWrite s p g g.tail bs).updFrame p f (fun r => { r with log := { r.log with tail := r.log.tail + bs.length } })

/-! What a write logs (R352, R353, R357, R359) -/

/-- R212: the device-global address of a local HBM or commons byte. -/
def globalHbm (s : State) (a : Nat) : Nat := at' (ownPeer s) 46 + a
def globalCommons (s : State) (c b : Nat) : Nat := at' (ownPeer s) 46 + at' 1 44 + at' (c / 96) 29 + at' (c % 96) 22 + b

/-- R357: LOC of a location inside the package. -/
def locField (s : State) (l : Loc) : Nat :=
  match l with
  | .hbm a => globalHbm s a
  | .commons c b | .ring c b => globalCommons s c b
  | .pool p vp el b => at' 1 62 + at' p 33 + at' vp 21 + at' el 19 + b
  | _ => at' 2 62

/-- Whose write it is: placement, frame, window and the fields that its entry carries (R356, R359). -/
structure Writer where
  p : Nat
  f : Nat
  win : Nat
  iter : Nat
  elem : Nat
  cs : Nat
  spec : Nat
  deriving DecidableEq, Repr

/-- R352, R353, R358, R359, R414: the entry that a write of one line appends, if any. `always`: it is logged whatever its window has logged before. -/
def logEntryOf (s : State) (g : Log) (w : Writer) (ln : Line) (atomic always : Bool) : Option LogEntry :=
  let whole := g.mode == 1
  let line := ln.loc.back ln.loc.inLine
  let loc := if whole then line else ln.loc
  let n := if whole then 128 else ln.n
  let va := if whole then ln.va - ln.loc.inLine else ln.va
  if g.mode = 0 || ln.nolog || (whole && !always && g.seen.contains (line, w.win)) then none
  else
    let old := if ln.irrev || outside ln.loc then none else readLoc s ln.key loc n
    let base : LogEntry :=
      { va := va, loc := at' 2 62, win := w.win, iter := w.iter, elem := w.elem, cs := w.cs, kind := lgIRREV, undone := false,
        spec := w.spec, flen := n, data := [] }
    some (match old with
      | some bs => { base with loc := locField s loc, kind := if atomic then lgATOMIC else lgSTORE, data := bs }
      | none => base)

/-- R359: a line counts as logged for a window. -/
def markSeen (s : State) (w : Writer) (ln : Line) : State :=
  s.updFrame w.p w.f (fun r => if r.log.mode = 1 then
    { r with log := { r.log with seen := (ln.loc.back ln.loc.inLine, w.win) :: r.log.seen } } else r)

/-- R365: the bytes of its span that the write of the entry to be appended at TAIL leaves alone. (DEDUCED, unsafe: log 139.) -/
def markGaps (s : State) (p f i : Nat) (gaps : List Nat) : State :=
  if gaps.isEmpty then s else s.updFrame p f (fun r => { r with log := { r.log with gaps := Tab.set r.log.gaps i gaps } })

/-- R366: an append of `need` bytes that finds no room is held; the first of an episode is reported to the frame's home. -/
def logHeld (s : State) (w : Writer) (h : Holder) (need : Nat) (va : Word) : State :=
  let fr := s.frameOf w.p w.f
  if fr.log.waiting.contains h then s
  else
    let s1 := s.updFrame w.p w.f (fun r => { r with log := { r.log with waiting := r.log.waiting ++ [h] } })
    if !fr.log.waiting.isEmpty then s1
    else
      sendRecord s1 fr.home { recordZero with
        code := cLOGFULL, kind := 3, elem := w.elem, cs := w.cs, fval := va, frm := frmField w.p w.f fr.gen, aux := need }

/-- Appends held in a frame's log that wait no longer: they have been reserved, or their access is gone (R366). -/
def logDrop (s : State) (p f : Nat) (gone : Holder → Bool) : State :=
  let g := (s.frameOf p f).log
  if g.waiting.any gone || g.exempt.any gone then
    unstall (s.updFrame p f (fun r => { r with log := { r.log with
      waiting := r.log.waiting.filter (fun h => !gone h), exempt := r.log.exempt.filter (fun h => !gone h) } }))
  else s

/-- An append of an access is held: kind, place and number as in its holders. -/
def logHolds (g : Log) (kind loc num : Nat) : Bool := g.waiting.any (fun h => h.kind == kind && h.loc == loc && h.num == num)

/-- R358 steps 1 and 2 for the write of one line: its entry is appended, or the write is held; false where it may not go on. A write that was held when
its frame's log was discarded performs without an entry (R371). (DEDUCED, unsafe: log 64.) -/
def logLine (s : State) (w : Writer) (h0 : Holder) (ln : Line) (atomic always : Bool) (gaps : List Nat := []) : State × Bool :=
  let h : Holder := { h0 with line := if outside ln.loc then none else some (homeLine ln.loc) }
  let g := (s.frameOf w.p w.f).log
  match logEntryOf s g w ln atomic always with
  | none => (logDrop s w.p w.f (· == h), true)
  | some l =>
    if g.exempt.contains h then (logDrop s w.p w.f (· == h), true)
    else if logRoom g (entrySize l.data.length) then
      match copyAmong s (ringPieces g g.tail (entrySize l.data.length)) with
      | some line => (recallLine s line, false)
      | none =>
        let s1 := if g.mode = 2 then markGaps s w.p w.f g.tail gaps else s
        (markSeen (appendEntry (logDrop s1 w.p w.f (· == h)) w.p w.f l) w ln, true)
    else (logHeld s w h (entrySize l.data.length) (word l.va), false)

/-- R354: the writes of several lines of one access are logged one after another, each line's entry being reserved by itself; false, with what has been
logged, where one is held. -/
def logLines (s : State) (w : Writer) (kind loc num : Nat) (always : Bool) : List Line → State × Bool
  | [] => (s, true)
  | ln :: rest =>
    match logLine s w { kind := kind, loc := loc, num := num, va := ln.va } ln false always with
    | (s1, true) => logLines s1 w kind loc num always rest
    | r => r

end Sys2Proof.Machine
end

