-- ==== Sys2Proof/Machine/Formats.lean ====
section
/-! DEFINITION. Number formats, rounding, conversion and group accumulation (R121 to R142), and the special functions (R195). -/

namespace Sys2Proof.Machine

/-! Formats (R122, R123, R126, R127) -/

/-- The special encodings that a floating-point format has (R127). -/
inductive Specials where
  | none
  /-- E4M3: a NaN of all ones and no infinity -/
  | nanOnly
  | ieee
  deriving DecidableEq, Repr

/-- R126, R127: a floating-point format: fraction bits, exponent bits, bias, specials, the largest finite value and the canonical NaN. -/
structure FpFmt where
  mb : Nat
  eb : Nat
  bias : Nat
  sp : Specials
  maxf : Nat
  nan : Nat
  deriving DecidableEq, Repr

/-- FP32. -/
def fp32 : FpFmt := ⟨23, 8, 127, .ieee, 0x7F7FFFFF, 0x7FC00000⟩
/-- BF16. -/
def bf16 : FpFmt := ⟨7, 8, 127, .ieee, 0x7F7F, 0x7FC0⟩

/-- R122: the floating-point format of a code. -/
def fpFmt (f : Nat) : Option FpFmt :=
  match f with
  | 0x0 => some fp32
  | 0x1 => some bf16
  | 0x2 => some ⟨10, 5, 15, .ieee, 0x7BFF, 0x7E00⟩
  | 0x3 => some ⟨3, 4, 7, .nanOnly, 0x7E, 0x7F⟩
  | 0x4 => some ⟨2, 5, 15, .ieee, 0x7B, 0x7E⟩
  | 0x5 => some ⟨1, 2, 1, .none, 0x7, 0x0⟩
  | 0xC => some ⟨15, 8, 127, .ieee, 0x7F7FFF, 0x7FC000⟩
  | _ => none

/-- The sign bit's place. -/
def FpFmt.signBit (f : FpFmt) : Nat := f.mb + f.eb

/-- R122: an integer format. -/
def fmtInt (f : Nat) : Bool := decide (0x6 ≤ f ∧ f ≤ 0xB)

/-- R190: a signed integer format. -/
def fmtSigned (f : Nat) : Bool := f == 0x6 || f == 0x8 || f == 0xA

/-- An exact value: NaN, an infinity, or ±m · 2^e with its sign kept when m is 0. -/
inductive FpNum where
  | nan
  | inf (neg : Bool)
  | fin (neg : Bool) (m : Nat) (e : Int)
  deriving DecidableEq, Repr

/-- R126, R127: the value of an encoding. -/
def decodeFp (f : FpFmt) (v : Nat) : FpNum :=
  let s := v / 2 ^ f.signBit % 2 == 1
  let x := v / 2 ^ f.mb % 2 ^ f.eb
  let fr := v % 2 ^ f.mb
  if f.sp == .ieee && x == 2 ^ f.eb - 1 then (if fr = 0 then .inf s else .nan)
  else if f.sp == .nanOnly && x == 2 ^ f.eb - 1 && fr == 2 ^ f.mb - 1 then .nan
  else if x = 0 then .fin s fr (1 - (f.bias : Int) - f.mb)
  else .fin s (2 ^ f.mb + fr) ((x : Int) - f.bias - f.mb)

/-- R190, R129: the value of an integer encoding. -/
def intVal (f v : Nat) : Int :=
  if fmtSigned f then signed (fmtBits f) v else ((v % 2 ^ fmtBits f : Nat) : Int)

/-- The exact value of an encoding of any format. -/
def valueOf (f v : Nat) : FpNum :=
  match fpFmt f with
  | some p => decodeFp p v
  | none => .fin (decide (intVal f v < 0)) (intVal f v).natAbs 0

/-! Rounding (R133 to R135) -/

/-- R133: m / 2^sh rounded to an integer: 0 to nearest with ties to even, 1 toward zero, 2 up, 3 down. -/
def roundNat (mode : Nat) (neg : Bool) (m sh : Nat) : Nat :=
  if sh = 0 then m
  else
    let q := m / 2 ^ sh
    let r := m % 2 ^ sh
    let half := 2 ^ (sh - 1)
    let up := match mode with
      | 0 => decide (half < r) || (r == half && q % 2 == 1)
      | 1 => false
      | 2 => decide (0 < r) && !neg
      | _ => decide (0 < r) && neg
    if up then q + 1 else q

/-- R134 RoundF of a nonzero ±m · 2^e: the rounded value is n · 2^q. -/
def roundF (f : FpFmt) (mode : Nat) (neg : Bool) (m : Nat) (e : Int) : Nat × Int :=
  let q := max ((Nat.log2 m : Int) + e) (1 - (f.bias : Int)) - f.mb
  if q ≤ e then (m * 2 ^ (e - q).toNat, q) else (roundNat mode neg m (q - e).toNat, q)

/-- The magnitude of an encoding without its sign as n · 2^q. -/
def maxfParts (f : FpFmt) : Nat × Int :=
  match decodeFp f f.maxf with
  | .fin _ m e => (m, e)
  | _ => (0, 0)

/-- n · 2^q exceeds MAXF. -/
def overMax (f : FpFmt) (n : Nat) (q : Int) : Bool :=
  let mx := maxfParts f
  if mx.2 ≤ q then decide (mx.1 < n * 2 ^ (q - mx.2).toNat) else decide (mx.1 * 2 ^ (mx.2 - q).toNat < n)

/-- The sign of an encoding. -/
def signPart (f : FpFmt) (neg : Bool) : Nat := if neg then 2 ^ f.signBit else 0

/-- The encoding of ±n · 2^q, a value of the format not above MAXF. -/
def encodeFp (f : FpFmt) (neg : Bool) (n : Nat) (q : Int) : Nat :=
  if n = 0 then signPart f neg
  else
    let l := (Nat.log2 n : Int) + q
    let emin : Int := 1 - (f.bias : Int)
    if l < emin then signPart f neg + n * 2 ^ (q - (emin - f.mb)).toNat
    else
      let k := Nat.log2 n
      let fr := if k ≤ f.mb then n * 2 ^ (f.mb - k) - 2 ^ f.mb else n / 2 ^ (k - f.mb) - 2 ^ f.mb
      signPart f neg + (l + f.bias).toNat * 2 ^ f.mb + fr

/-- ±∞, or ±MAXF in a format without infinities (R129). -/
def encodeInf (f : FpFmt) (neg : Bool) : Nat :=
  signPart f neg + (if f.sp == .ieee then (2 ^ f.eb - 1) * 2 ^ f.mb else f.maxf)

/-- R129, R134, R135: the encoding of an arithmetic result. -/
def arith (f : FpFmt) (mode : Nat) (x : FpNum) : Nat :=
  match x with
  | .nan => f.nan
  | .inf s => encodeInf f s
  | .fin s m e =>
    if m = 0 then signPart f s
    else
      let r := roundF f mode s m e
      if overMax f r.1 r.2 then
        (if f.sp != .ieee then signPart f s + f.maxf
        else
          match mode with
          | 0 => encodeInf f s
          | 1 => signPart f s + f.maxf
          | 2 => if s then signPart f s + f.maxf else encodeInf f s
          | _ => if s then encodeInf f s else signPart f s + f.maxf)
      else encodeFp f s r.1 r.2

/-! Exact arithmetic -/

/-- An integer m · 2^e as a number with a sign for zero. -/
def numOfInt (z : Int) (e : Int) (zeroNeg : Bool) : FpNum :=
  if z = 0 then .fin zeroNeg 0 0 else .fin (decide (z < 0)) z.natAbs e

/-- The signed integer that a finite value is at a common exponent. -/
def scaled (neg : Bool) (m : Nat) (e lo : Int) : Int :=
  let v := ((m * 2 ^ (e - lo).toNat : Nat) : Int)
  if neg then -v else v

def numNeg : FpNum → FpNum
  | .nan => .nan
  | .inf s => .inf (!s)
  | .fin s m e => .fin (!s) m e

/-- The exact sum; R135 gives the sign of a zero sum. (DESIGN CHOICE, unsafe: log 124.) -/
def numAdd (mode : Nat) : FpNum → FpNum → FpNum
  | .nan, _ => .nan
  | _, .nan => .nan
  | .inf s, .inf t => if s = t then .inf s else .nan
  | .inf s, .fin _ _ _ => .inf s
  | .fin _ _ _, .inf s => .inf s
  | .fin s m e, .fin t n k =>
    if m = 0 ∧ n = 0 then .fin (if s = t then s else mode == 3) 0 0
    else
      let lo := min e k
      numOfInt (scaled s m e lo + scaled t n k lo) lo (mode == 3)

/-- The exact product; ∞ × 0 is NaN. (DESIGN CHOICE, unsafe: log 123.) -/
def numMul : FpNum → FpNum → FpNum
  | .nan, _ => .nan
  | _, .nan => .nan
  | .inf s, .inf t => .inf (s != t)
  | .inf s, .fin t n _ => if n = 0 then .nan else .inf (s != t)
  | .fin s m _, .inf t => if m = 0 then .nan else .inf (s != t)
  | .fin s m e, .fin t n k => .fin (s != t) (m * n) (e + k)

/-- A total order key test: the first value is below the second, −0 being below +0. NaN compares as false. -/
def numLt (zeros : Bool) : FpNum → FpNum → Bool
  | .nan, _ => false
  | _, .nan => false
  | .inf s, .inf t => s && !t
  | .inf s, .fin _ _ _ => s
  | .fin _ _ _, .inf t => !t
  | .fin s m e, .fin t n k =>
    if m = 0 ∧ n = 0 then zeros && s && !t
    else
      let lo := min e k
      decide (scaled s m e lo < scaled t n k lo)

def FpNum.isNan : FpNum → Bool
  | .nan => true
  | _ => false

def FpNum.isZero : FpNum → Bool
  | .fin _ 0 _ => true
  | _ => false

def FpNum.negative : FpNum → Bool
  | .nan => false
  | .inf s => s
  | .fin s _ _ => s

/-! Conversion (R136) -/

/-- R129: the range of an integer format. -/
def intLow (f : Nat) : Int := if fmtSigned f then -(2 ^ (fmtBits f - 1)) else 0
def intHigh (f : Nat) : Int := if fmtSigned f then 2 ^ (fmtBits f - 1) - 1 else 2 ^ fmtBits f - 1

/-- The encoding of an integer modulo 2^w. -/
def intEnc (f : Nat) (z : Int) : Nat := (z % ((2 ^ fmtBits f : Nat) : Int)).toNat

/-- R136 Convert: the encoding in format `d`, and whether the lane saturated. -/
def convert (d mode : Nat) (x : FpNum) : Nat × Bool :=
  match fpFmt d with
  | some f =>
    match x with
    | .nan => (f.nan, f.sp == .none)
    | .inf s => (encodeInf f s, f.sp != .ieee)
    | .fin s m e =>
      if m = 0 then (signPart f s, false)
      else
        let r := roundF f mode s m e
        if overMax f r.1 r.2 then (signPart f s + f.maxf, true) else (encodeFp f s r.1 r.2, false)
  | none =>
    match x with
    | .nan => (0, true)
    | .inf s => (intEnc d (if s then intLow d else intHigh d), true)
    | .fin s m e =>
      let n := if 0 ≤ e then m * 2 ^ e.toNat else roundNat mode s m (-e).toNat
      let z : Int := if s then -(n : Int) else n
      if z < intLow d then (intEnc d (intLow d), true)
      else if intHigh d < z then (intEnc d (intHigh d), true)
      else (intEnc d z, false)

/-- R137: the payload of an overflow token, from the exact values of the saturated lanes. -/
def overflowWord (sat : List FpNum) : Word :=
  let mx := sat.foldl (fun (m : FpNum) x =>
    match m, x with
    | .nan, _ => .nan
    | _, .nan => .nan
    | m, .inf _ => if m.isNan then m else .inf false
    | m, .fin _ a e => if numLt false m (.fin false a e) then .fin false a e else m) (.fin false 0 0)
  word (at' sat.length 32 + (if sat.isEmpty then 0 else arith fp32 2 mx))

/-! Group accumulation (R140, R141) -/

/-- floor(log2 |x|) of a nonzero finite value. -/
def numLog (m : Nat) (e : Int) : Int := (Nat.log2 m : Int) + e

/-- R140 Trunc, as an integer in units of 2^g. -/
def truncAt (neg : Bool) (m : Nat) (e g : Int) : Int :=
  let v : Nat := if g ≤ e then m * 2 ^ (e - g).toNat else m / 2 ^ (g - e).toNat
  if neg then -(v : Int) else v

/-- R140: the sum G of a group's products, none of them NaN. -/
def groupSum (ps : List FpNum) : FpNum :=
  let infs := ps.filterMap (fun p => match p with
    | .inf s => some s
    | _ => none)
  match infs with
  | s :: rest => if rest.any (· != s) then .nan else .inf s
  | [] =>
    let nz := ps.filterMap (fun p => match p with
      | .fin s m e => if m = 0 then none else some (s, m, e)
      | _ => none)
    match nz with
    | [] => .fin false 0 0
    | p :: rest =>
      let top := rest.foldl (fun t q => max t (numLog q.2.1 q.2.2)) (numLog p.2.1 p.2.2)
      numOfInt ((nz.map (fun q => truncAt q.1 q.2.1 q.2.2 (top - 60))).foldl (· + ·) 0) (top - 60) false

/-- R140 AccGroup: an FP32 lane after one group. -/
def accGroup (acc : Nat) (as bs : List FpNum) (sa sb : FpNum) (mode : Nat) : Nat :=
  let a := decodeFp fp32 acc
  let ps := List.zipWith numMul as bs
  let s := numMul sa sb
  if a.isNan || sa.isNan || sb.isNan || as.any FpNum.isNan || bs.any FpNum.isNan || s.isNan || ps.any FpNum.isNan then fp32.nan
  else
    match numMul s (groupSum ps) with
    | .nan => fp32.nan
    | .inf t =>
      match a with
      | .inf u => if u = t then encodeInf fp32 t else fp32.nan
      | _ => encodeInf fp32 t
    | .fin t m e =>
      if m = 0 then acc
      else
        match a with
        | .inf _ => acc
        | _ => arith fp32 mode (numAdd mode a (.fin t m e))

/-- R141: a sum clamped to INT32. -/
def satInt32 (z : Int) : Nat := intEnc 0x8 (max (intLow 0x8) (min (intHigh 0x8) z))

/-! Special functions (R195): a result that is no dyadic number is given to about 2^-700 below 1, its lowest bit standing for what follows, so
that one rounding of it is the correct rounding. -/

/-- The fixed point: values are integers in units of 2^-fxBits. -/
def fxBits : Nat := 768

/-- One in fixed point. -/
def fxOne : Nat := 2 ^ fxBits

/-- Σ x^(2k+1) / ((2k+1) n^(2k+1)) for x = 1, with alternating signs for the arc tangent. -/
def arcSeries (alt : Bool) : Nat → Nat → Nat → Int → Nat → Int
  | 0, _, _, acc, _ => acc
  | fuel + 1, p, n2, acc, k =>
    if p = 0 then acc
    else
      let t : Int := ((p / (2 * k + 1) : Nat) : Int)
      arcSeries alt fuel (p / n2) n2 (if alt && k % 2 == 1 then acc - t else acc + t) (k + 1)

/-- artanh(1/n). -/
def artanhInv (n : Nat) : Nat := (arcSeries false 800 (fxOne / n) (n * n) 0 0).toNat

/-- arctan(1/n). -/
def arctanInv (n : Nat) : Nat := (arcSeries true 800 (fxOne / n) (n * n) 0 0).toNat

/-- ln 2. -/
def fxLn2 : Nat := 18 * artanhInv 26 - 2 * artanhInv 4801 + 8 * artanhInv 8749

/-- π. -/
def fxPi : Nat := 16 * arctanInv 5 - 4 * arctanInv 239

/-- The product in fixed point. -/
def fxMul (a b : Nat) : Nat := a * b / fxOne

/-- Σ y^k / k! -/
def expSeries : Nat → Nat → Nat → Nat → Nat → Nat
  | 0, _, _, acc, _ => acc
  | fuel + 1, y, t, acc, k => if t = 0 then acc else expSeries fuel y (fxMul t y / (k + 1)) (acc + t) (k + 1)

/-- e^y for y in [0, 1). -/
def fxExp (y : Nat) : Nat := expSeries 300 y fxOne 0 0

/-- Σ (−1)^k y^(2k+s) / (2k+s)!, from the first term. -/
def trigSeries : Nat → Nat → Nat → Int → Nat → Bool → Int
  | 0, _, _, acc, _, _ => acc
  | fuel + 1, y2, t, acc, k, plus =>
    if t = 0 then acc
    else trigSeries fuel y2 (fxMul t y2 / ((k + 1) * (k + 2))) (if plus then acc + t else acc - t) (k + 2) (!plus)

/-- sin y for y in [0, π/2]. -/
def fxSin (y : Nat) : Nat := (trigSeries 300 (fxMul y y) y 0 1 true).toNat

/-- cos y for y in [0, π/2]. -/
def fxCos (y : Nat) : Nat := (trigSeries 300 (fxMul y y) fxOne 0 0 true).toNat

/-- A value known to lie just above v · 2^e, its rest standing in the lowest bit. -/
def sticky (neg : Bool) (v : Nat) (e : Int) : FpNum := .fin neg (2 * v + 1) (e - 1)

/-- The fixed-point value of a dyadic number below 2^fxBits and above 2^-fxBits. -/
def fxOf (m : Nat) (e : Int) : Nat :=
  if 0 ≤ e + fxBits then m * 2 ^ (e + fxBits).toNat else m / 2 ^ (-(e + fxBits)).toNat

/-- Floor and fraction of ±m · 2^e: an integer, and the fraction in fixed point. -/
def splitFloor (neg : Bool) (m : Nat) (e : Int) : Int × Nat :=
  let v := ((fxOf m e : Nat) : Int)
  let z : Int := if neg then -v else v
  (z / (fxOne : Int), (z % (fxOne : Int)).toNat)

/-- 2^x. -/
def fnExp2 : FpNum → FpNum
  | .nan => .nan
  | .inf s => if s then .fin false 0 0 else .inf false
  | .fin s m e =>
    if m = 0 then .fin false 1 0
    else if 12 ≤ numLog m e then (if s then .fin false 1 (-5000) else .fin false 1 5000)
    else
      let k := splitFloor s m e
      if k.2 = 0 then .fin false 1 k.1 else sticky false (fxExp (fxMul k.2 fxLn2)) (k.1 - fxBits)

/-- The integer square root, one bit of the result at a time. -/
def isqrtFrom (n : Nat) : Nat → Nat → Nat
  | 0, r => r
  | b + 1, r => isqrtFrom n b (if (r + 2 ^ b) * (r + 2 ^ b) ≤ n then r + 2 ^ b else r)

/-- floor(√n). -/
def isqrt (n : Nat) : Nat := isqrtFrom n (Nat.log2 n / 2 + 1) 0

/-- √x. -/
def fnSqrt : FpNum → FpNum
  | .nan => .nan
  | .inf s => if s then .nan else .inf false
  | .fin s m e =>
    if m = 0 then .fin s 0 0
    else if s then .nan
    else
      let e' := if e % 2 = 0 then e else e - 1
      let n := (if e % 2 = 0 then m else 2 * m) * 2 ^ 128
      let r := isqrt n
      if r * r = n then .fin false r (e' / 2 - 64) else sticky false r (e' / 2 - 64)

/-- 1/x. -/
def fnRcp : FpNum → FpNum
  | .nan => .nan
  | .inf s => .fin s 0 0
  | .fin s m e =>
    if m = 0 then .inf s
    else
      let n := 2 ^ 256
      if n % m = 0 then .fin s (n / m) (-e - 256) else sticky s (n / m) (-e - 256)

/-- 1/√x. -/
def fnRsq : FpNum → FpNum
  | .nan => .nan
  | .inf s => if s then .nan else .fin false 0 0
  | .fin s m e =>
    if m = 0 then .inf s
    else if s then .nan
    else
      let e' := if e % 2 = 0 then e else e - 1
      let n := if e % 2 = 0 then m else 2 * m
      let r := isqrt (2 ^ 512 / n)
      if r * r * n = 2 ^ 512 then .fin false r (-(e' / 2) - 256) else sticky false r (-(e' / 2) - 256)

/-- ln y for y in [1, 2): 2 artanh((y − 1)/(y + 1)). -/
def lnSeries : Nat → Nat → Nat → Nat → Nat → Nat
  | 0, _, _, acc, _ => acc
  | fuel + 1, z2, p, acc, k => if p = 0 then acc else lnSeries fuel z2 (fxMul p z2) (acc + p / (2 * k + 1)) (k + 1)

/-- log2 x. -/
def fnLog2 : FpNum → FpNum
  | .nan => .nan
  | .inf s => if s then .nan else .inf false
  | .fin s m e =>
    if m = 0 then .inf true
    else if s then .nan
    else
      let l := Nat.log2 m
      let k := (l : Int) + e
      if m = 2 ^ l then numOfInt k 0 false
      else
        let y := fxOf m (-(l : Int))
        let z := (y - fxOne) * fxOne / (y + fxOne)
        let f := 2 * lnSeries 800 (fxMul z z) z 0 0 * fxOne / fxLn2
        let v := k * (fxOne : Int) + f
        if 0 ≤ v then sticky false v.toNat (-(fxBits : Int))
        else sticky true ((-v).toNat - 1) (-(fxBits : Int))

/-- |x| modulo 2 in units of 2^-fxBits; every format's values are multiples of 2^-200. -/
def modTwo (m : Nat) (e : Int) : Nat :=
  if 1 ≤ e then 0 else fxOf m e % (2 * fxOne)

/-- sin(π r) for r in [0, 2), with its sign; 0 and ±1 exactly. -/
def sinTurns (r : Nat) : FpNum :=
  let neg := decide (fxOne ≤ r)
  let q := r % fxOne
  let h := if 2 * q ≤ fxOne then q else fxOne - q
  if h = 0 then .fin neg 0 0
  else if 2 * h = fxOne then .fin neg 1 0
  else
    let v := if 4 * h ≤ fxOne then fxSin (fxMul h fxPi) else fxCos (fxMul (fxOne / 2 - h) fxPi)
    sticky neg v (-(fxBits : Int))

/-- sin(πx); an integer x ≠ 0 gives a zero of x's sign. -/
def fnSinpi : FpNum → FpNum
  | .nan => .nan
  | .inf _ => .nan
  | .fin s m e =>
    match sinTurns (modTwo m e) with
    | .fin t n k => if n = 0 then .fin s 0 0 else .fin (s != t) n k
    | v => v

/-- cos(πx); an x of k + 1/2 gives +0. -/
def fnCospi : FpNum → FpNum
  | .nan => .nan
  | .inf _ => .nan
  | .fin _ m e =>
    match sinTurns ((modTwo m e + fxOne / 2) % (2 * fxOne)) with
    | .fin t n k => if n = 0 then .fin false 0 0 else .fin t n k
    | v => v

/-- tanh x. -/
def fnTanh : FpNum → FpNum
  | .nan => .nan
  | .inf s => .fin s 1 0
  | .fin s m e =>
    if m = 0 then .fin s 0 0
    else if 6 ≤ numLog m e then sticky s (2 ^ 180 - 1) (-180)
    else
      let y := 2 * fxOf m e
      let k := y / fxLn2
      let ex := fxExp (y % fxLn2) * 2 ^ k
      sticky s ((ex - fxOne) * fxOne / (ex + fxOne)) (-(fxBits : Int))

end Sys2Proof.Machine
end

