-- ==== Sys2Proof/Machine/Vector.lean ====
section
/-! DEFINITION. The tile vector operators (R178 to R200). -/

namespace Sys2Proof.Machine

/-! Tiles (R54, R123, R124) -/

/-- R54, R183 row 5: a shape that a descriptor can name. -/
def describable (f rows cols : Nat) : Bool :=
  decide (1 ≤ rows ∧ rows ≤ 64 ∧ 1 ≤ cols ∧ cols ≤ 64 * colMult f ∧ cols % colMult f = 0
    ∧ rows * cols * fmtBits f % 8 = 0 ∧ shapeBytes f rows cols ≤ 4096)

/-- R124: a valid descriptor. -/
def validDescriptor (d : Word) : Bool :=
  decide (dFMT d ≤ 0xB) && field d 0 32 == 0 && describable (dFMT d) (dRows d) (dCols d)

/-- R54: a descriptor with TSLOT 0, which its receiver writes. -/
def descriptor (f rows cols mslot : Nat) : Word :=
  word (at' f 60 + at' (rows - 1) 54 + at' (cols / colMult f - 1) 48 + at' mslot 32)

/-- R123: elements of `w` bits from bytes. -/
def unpackElems (w : Nat) (fuel : Nat) (bs : List Byte) : List Nat :=
  match fuel, bs with
  | 0, _ => []
  | _, [] => []
  | f + 1, b :: rest =>
    if w = 4 then b.toNat % 16 :: b.toNat / 16 :: unpackElems w f rest
    else leNat ((b :: rest).take (w / 8)) :: unpackElems w f ((b :: rest).drop (w / 8))

/-- R123: the elements of a tile's bytes. -/
def tileElems (f : Nat) (bs : List Byte) : List Nat := unpackElems (fmtBits f) bs.length bs

/-- R123: the bytes of 4-bit elements. -/
def packNibbles : List Nat → List Byte
  | a :: b :: l => BitVec.ofNat 8 (a % 16 + 16 * (b % 16)) :: packNibbles l
  | [a] => [BitVec.ofNat 8 (a % 16)]
  | [] => []

/-- R123: a tile's bytes from its elements. -/
def tileBytes (f : Nat) (es : List Nat) : List Byte :=
  if fmtBits f = 4 then packNibbles es else es.flatMap (fun v => leBytes (fmtBits f / 8) v)

/-! The attribute word (R181) -/

def vK (w : Word) : Nat := field w 32 32
def vIF (w : Word) : Nat := field w 28 4
def vOF (w : Word) : Nat := field w 24 4
def vRM (w : Word) : Nat := field w 22 2
def vOPF (w : Word) : Nat := field w 0 10

/-- R181: K as a value of format `f`. -/
def constK (f : Nat) (w : Word) : Nat :=
  if f = 0xA then intEnc 0xA (signed 32 (vK w)) else vK w % 2 ^ fmtBits f

/-! Operands (R178) -/

/-- An operand of a tile operator: a tile with its descriptor and its bytes, or a scalar. -/
inductive VOperand where
  | tile (d : Word) (bs : List Byte)
  | val (v : Word)
  deriving DecidableEq, Repr

/-- R178: an operand in the form in which it came; a LIT with LT = 1 is a standing tile. -/
def vecOperand (F : Fire) (o : Operand) (code : Nat) : VOperand :=
  if o.tok.kind == .tile then .tile o.tok.payload (o.tok.tile.getD [])
  else if code = 12 && bit F.cfg 10 then
    let d := o.tok.payload
    .tile d (memRead F.c.pool (slotOff F.c (dTSLOT d)) (shapeBytes (dFMT d) (dRows d) (dCols d)))
  else .val o.tok.payload

def Fire.va (F : Fire) : VOperand := vecOperand F F.a (wSA F.w)
def Fire.vb (F : Fire) : VOperand := vecOperand F F.b (wSB F.w)

def VOperand.isTile : VOperand → Bool
  | .tile _ _ => true
  | .val _ => false

/-- The descriptor of an operand; 0 for a scalar. -/
def VOperand.desc : VOperand → Word
  | .tile d _ => d
  | .val _ => 0

/-- The elements of an operand as `n` values of format `f`: a scalar stands for every element. -/
def VOperand.elems (o : VOperand) (f n : Nat) : List Nat :=
  match o with
  | .tile d bs => tileElems (dFMT d) bs
  | .val v => List.replicate n (v.toNat % 2 ^ fmtBits f)

/-- R183 row 1: a tile whose format an entry does not take. -/
def badFormat (o : VOperand) (ok : Nat → Bool) : Bool := o.isTile && !ok (dFMT o.desc)

/-! Masks and results (R184, R185) -/

/-- R184: the mask of a firing; none where A's MSLOT is no standing slot (R183 row 4). -/
def maskOf (F : Fire) (n : Nat) : Option (List Bool) :=
  let ms := dMSLOT F.va.desc
  if bit F.cfg 20 || !F.va.isTile || ms == 0xFF then some (List.replicate n true)
  else if F.c.standing ≤ ms then none
  else
    let off := slotOff F.c ms
    some ((List.range n).map (fun k => (memByte F.c.pool (off + k / 8)).getLsbD (k % 8)))

/-- R185: the MSLOT of a result. -/
def resultMslot (F : Fire) : Nat := if bit F.cfg 19 then field F.cfg 11 8 else if F.va.isTile then dMSLOT F.va.desc else 0xFF

/-- R180: a tile result in the `i`th free tile slot. -/
def Fire.tileTok (F : Fire) (i f rows cols mslot : Nat) (es : List Nat) : Tok :=
  { F.tag with kind := .tile, payload := descriptor f rows cols mslot, tile := some (tileBytes f es),
               slotRef := (freeSlots F.el F.x F.c)[i]? }

/-- R125: a scalar in a format. -/
def scalarWord (f v : Nat) : Word :=
  if f = 0x6 ∨ f = 0x8 then wordI (signed (fmtBits f) v) else word (v % 2 ^ fmtBits f)

/-- A tile result on D0 and, as copy, on D1. -/
def Fire.tileOut (F : Fire) (f rows cols : Nat) (es : List Nat) : FireOut :=
  .emit (F.both (F.tileTok 0 f rows cols (resultMslot F) es)) none []

/-! Operators lane by lane -/

/-- R183 rows 1 to 3 for operands A and B, then the shape of the firing. -/
def vecShape (F : Fire) (okA okB : Nat → Bool) (useB : Bool) : Except Word (Nat × Nat) :=
  let a := F.va
  let b := F.vb
  if badFormat a okA then .error a.desc
  else if useB && badFormat b okB then .error b.desc
  else if !a.isTile && !(useB && b.isTile) then .error 0
  else if useB && a.isTile && b.isTile && (dRows a.desc != dRows b.desc || dCols a.desc != dCols b.desc) then .error b.desc
  else
    let d := if a.isTile then a.desc else b.desc
    .ok (dRows d, dCols d)

/-- A lane's result where its mask bit is 1, else the merge value (R181 MRG, R184): A's element, or zero. -/
def mergeLanes (mrg : Bool) : List Bool → List Nat → List Nat → List Nat
  | m :: ms, a :: l, r :: rs => (if m then r else if mrg then 0 else a) :: mergeLanes mrg ms l rs
  | _, _, _ => []

/-- R183 row 5: the fault value, A's descriptor where A has one. -/
def Fire.shapeFault (F : Fire) : Word := if F.va.isTile then F.va.desc else Config.scalarFaultValue F.a.tok.payload F.vb.desc

/-- R184 "lanes": a result tile of A's shape in format OF, its elements computed from those of A and B. -/
def laneOp (okA okB : Nat → Bool) (useB : Bool) (f : Fire → Nat → Nat → Nat) (F : Fire) : FireOut :=
  let ifm := vIF F.cfg
  let ofm := vOF F.cfg
  match vecShape F okA okB useB with
  | .error d => .fault cTILESHAPE d
  | .ok (r, c) =>
    match maskOf F (r * c) with
    | none => .fault cTILESHAPE F.va.desc
    | some m =>
      if !describable ofm r c then .fault cTILESHAPE F.shapeFault
      else
        let as := F.va.elems ifm (r * c)
        let bs := if useB then F.vb.elems ifm (r * c) else as
        F.tileOut ofm r c (mergeLanes (bit F.cfg 21) m as (List.zipWith (f F) as bs))

/-- An operator of two operands in format IF. -/
def laneTwo (f : Fire → Nat → Nat → Nat) (F : Fire) : FireOut :=
  laneOp (· == vIF F.cfg) (· == vIF F.cfg) true f F

/-- An operator of A alone in format IF. -/
def laneOne (f : Fire → Nat → Nat) (F : Fire) : FireOut :=
  laneOp (· == vIF F.cfg) (fun _ => true) false (fun G a _ => f G a) F

/-- The floating-point format of IF, FP32 for a code that GLOAD refuses. -/
def Fire.fp (F : Fire) : FpFmt := (fpFmt (vIF F.cfg)).getD fp32

/-- R188: an arithmetic result of two elements. -/
def fpTwo (g : Nat → FpNum → FpNum → FpNum) (F : Fire) (a b : Nat) : Nat :=
  arith F.fp (vRM F.cfg) (g (vRM F.cfg) (decodeFp F.fp a) (decodeFp F.fp b))

/-- R188 VADD. -/
def laneAdd : Fire → Nat → Nat → Nat := fpTwo numAdd
/-- R188 VSUB. -/
def laneSub : Fire → Nat → Nat → Nat := fpTwo (fun rm a b => numAdd rm a (numNeg b))
/-- R188 VMUL. -/
def laneMul : Fire → Nat → Nat → Nat := fpTwo (fun _ a b => numMul a b)

/-- R188: the lesser or the greater of two elements, the canonical NaN for a NaN; −0 is below +0. -/
def fpPick (greater : Bool) (f : FpFmt) (a b : Nat) : Nat :=
  let x := decodeFp f a
  let y := decodeFp f b
  if x.isNan || y.isNan then f.nan
  else if greater then (if numLt true x y then b else a)
  else if numLt true y x then b else a

/-- R188 VABS, VNEG: the sign cleared, or inverted. -/
def fpSign (invert : Bool) (F : Fire) (a : Nat) : Nat :=
  let f := F.fp
  let top := 2 ^ f.signBit
  if (decodeFp f a).isNan then f.nan
  else if invert then (if a / top % 2 = 1 then a - top else a + top)
  else a % top

/-- R189 VFMA. -/
def laneFma (F : Fire) (a b : Nat) : Nat :=
  let f := F.fp
  let c := decodeFp fp32 (vK F.cfg)
  let x := decodeFp f a
  let y := decodeFp f b
  arith f (vRM F.cfg) (if bit F.cfg 0 then numAdd (vRM F.cfg) (numMul x c) y else numAdd (vRM F.cfg) (numMul x y) c)

/-- R190: an exact integer reduced modulo 2^w, or clamped with SAT = 1. -/
def intResult (F : Fire) (z : Int) : Nat :=
  let f := vIF F.cfg
  if bit F.cfg 0 then intEnc f (max (intLow f) (min (intHigh f) z)) else intEnc f z

/-- R190. -/
def laneInt (g : Int → Int → Int) (F : Fire) (a b : Nat) : Nat := intResult F (g (intVal (vIF F.cfg) a) (intVal (vIF F.cfg) b))

/-- R190 VIMIN, VIMAX. -/
def intPick (greater : Bool) (f a b : Nat) : Nat :=
  if greater then (if intVal f a < intVal f b then b else a) else if intVal f b < intVal f a then b else a

/-- R191: a condition on two exact values. -/
def vcmpHolds (cond : Nat) (x y : FpNum) : Bool :=
  let un := x.isNan || y.isNan
  let lt := numLt false x y
  let gt := numLt false y x
  match cond with
  | 0 => !un && !lt && !gt
  | 1 => un || lt || gt
  | 2 => lt
  | 3 => !un && !gt
  | 4 => gt
  | 5 => !un && !lt
  | 6 => un
  | _ => false

/-- R191 VCMP. -/
def laneCmp (F : Fire) (a b : Nat) : Nat :=
  if vcmpHolds (field F.cfg 0 3) (valueOf (vIF F.cfg) a) (valueOf (vIF F.cfg) b) then 1 else 0

/-- R192 VSEL. -/
def laneSel (F : Fire) (a b : Nat) : Nat := if a ≠ 0 then b else constK (vIF F.cfg) F.cfg

/-- R192 VCLAMP. -/
def laneClamp (F : Fire) (a b : Nat) : Nat :=
  let f := vIF F.cfg
  let k := constK f F.cfg
  match fpFmt f with
  | some p => fpPick false p (fpPick true p a b) k
  | none => intPick false f (intPick true f a b) k

/-- R193: a bitwise operation on patterns. -/
def laneBits (g : Nat → Nat → Nat) (_F : Fire) (a b : Nat) : Nat := g a b

/-- R193 VSHL, VSHR, VSAR: the amount is B read as unsigned. -/
def laneShift (kind : Nat) (F : Fire) (a s : Nat) : Nat :=
  let f := vIF F.cfg
  let w := fmtBits f
  if kind = 2 then intEnc f (signed w a / 2 ^ min s w)
  else if w ≤ s then 0
  else if kind = 0 then a * 2 ^ s % 2 ^ w
  else a / 2 ^ s

/-- R195: a special function, rounded once into OF. (DEDUCED, safe: log 29.) -/
def laneFn (g : FpNum → FpNum) (F : Fire) (a : Nat) : Nat :=
  arith ((fpFmt (vOF F.cfg)).getD fp32) (vRM F.cfg) (g (decodeFp F.fp a))

/-! Conversion and splitting (R194) -/

/-- R137: an overflow token on D1, with the tag of the D0 result after the tag action. -/
def Fire.overflowOut (F : Fire) (sat : List FpNum) : List Emit := F.put F.d1 (F.tok .data (overflowWord sat))

/-- R194 VCVT. -/
def outVcvt (F : Fire) : FireOut :=
  let ifm := vIF F.cfg
  let ofm := vOF F.cfg
  match vecShape F (· == ifm) (fun _ => true) false with
  | .error d => .fault cTILESHAPE d
  | .ok (r, c) =>
    match maskOf F (r * c) with
    | none => .fault cTILESHAPE F.va.desc
    | some m =>
      if !describable ofm r c then .fault cTILESHAPE F.va.desc
      else
        let as := F.va.elems ifm (r * c)
        let rs := as.map (fun a => convert ofm (vRM F.cfg) (valueOf ifm a))
        let sat := (List.zip m (List.zip as rs)).filterMap (fun p => if p.1 && p.2.2.2 then some (valueOf ifm p.2.1) else none)
        .emit (F.put F.d0 (F.tileTok 0 ofm r c (resultMslot F) (mergeLanes (bit F.cfg 21) m as (rs.map (·.1)))) ++ F.overflowOut sat)
          none []

/-- R138: the BF16 head of an FP32 lane. -/
def splitHead (a : Nat) : Nat := (convert 0x1 0 (decodeFp fp32 a)).1

/-- R138: the FP32 remainder of an FP32 lane. -/
def splitRest (a : Nat) : Nat :=
  match decodeFp fp32 a with
  | .nan => fp32.nan
  | .inf _ => 0
  | x => if x.isZero then 0 else arith fp32 0 (numAdd 0 x (numNeg (decodeFp bf16 (splitHead a))))

/-- R194 VSPLIT. -/
def outVsplit (F : Fire) : FireOut :=
  match vecShape F (· == 0) (fun _ => true) false with
  | .error d => .fault cTILESHAPE d
  | .ok (r, c) =>
    match maskOf F (r * c) with
    | none => .fault cTILESHAPE F.va.desc
    | some m =>
      if !describable 1 r c then .fault cTILESHAPE F.va.desc
      else
        let as := F.va.elems 0 (r * c)
        let ms := resultMslot F
        .emit (F.put F.d0 (F.tileTok 0 1 r c ms (mergeLanes true m as (as.map splitHead)))
          ++ F.put F.d1 (F.tileTok 1 0 r c ms (mergeLanes true m as (as.map splitRest)))) none []

/-! Reductions and scan (R196) -/

/-- Groups of `n` elements. -/
def chunksOf (fuel n : Nat) (l : List Nat) : List (List Nat) :=
  match fuel with
  | 0 => []
  | f + 1 => if l.isEmpty then [] else l.take n :: chunksOf f n (l.drop n)

/-- The columns of `rows`, each of `c` elements. -/
def columnsOf (c : Nat) (rows : List (List Nat)) : List (List Nat) :=
  (List.range c).map (fun j => rows.map (fun r => r.getD j 0))

/-- ceil(log2 n) of n ≥ 1. -/
def log2Up (n : Nat) : Nat := if n ≤ 1 then 0 else Nat.log2 (n - 1) + 1

/-- R196 Tree. -/
def treeSum (add : Nat → Nat → Nat) : Nat → List Nat → Nat
  | 0, l => l.headD 0
  | f + 1, l =>
    if l.length ≤ 1 then l.headD 0
    else
      let h := 2 ^ (log2Up l.length - 1)
      add (treeSum add f (l.take h)) (treeSum add f (l.drop h))

/-- R196 Scan: one pass at distance `d`. (DEDUCED, unsafe: log 27.) -/
def scanPass (add : Nat → Nat → Nat) (d : Nat) (v : List Nat) : List Nat := v.take d ++ List.zipWith add v (v.drop d)

/-- R196 Scan. -/
def scanSum (add : Nat → Nat → Nat) : Nat → Nat → List Nat → List Nat
  | 0, _, v => v
  | f + 1, d, v => if d < v.length then scanSum add f (2 * d) (scanPass add d v) else v

/-- R196: an input of format IF as a value of OF. -/
def widen (F : Fire) (a : Nat) : Nat :=
  if vIF F.cfg = vOF F.cfg then a
  else
    match fpFmt (vOF F.cfg) with
    | some p => arith p 0 (valueOf (vIF F.cfg) a)
    | none => intEnc (vOF F.cfg) (intVal (vIF F.cfg) a)

/-- R196 Add, in OF. -/
def addOf (F : Fire) (a b : Nat) : Nat :=
  match fpFmt (vOF F.cfg) with
  | some p => arith p (vRM F.cfg) (numAdd (vRM F.cfg) (decodeFp p a) (decodeFp p b))
  | none => intEnc (vOF F.cfg) (intVal (vOF F.cfg) a + intVal (vOF F.cfg) b)

/-- R196 VRSUM of one sequence. -/
def reduceSum (F : Fire) (l : List Nat) : Nat := treeSum (addOf F) 16 (l.map (widen F))

/-- R196 VRMAX of one sequence; one element passes unchanged. -/
def reduceMax (F : Fire) (l : List Nat) : Nat :=
  match l with
  | [] => 0
  | a :: rest =>
    rest.foldl (fun m v => match fpFmt (vIF F.cfg) with
      | some p => fpPick true p m v
      | none => intPick true (vIF F.cfg) m v) a

/-- R129: a value of OF, a NaN in its canonical form. -/
def canonOf (F : Fire) (a : Nat) : Nat :=
  match fpFmt (vOF F.cfg) with
  | some p => arith p 0 (decodeFp p a)
  | none => a

/-- R196, R129 VSCAN of one sequence; one element passes unchanged. -/
def scanOf (F : Fire) (l : List Nat) : List Nat :=
  let r := scanSum (addOf F) 16 1 (l.map (widen F))
  if l.length ≤ 1 then r else r.map (canonOf F)

/-- R184 "inputs", R183: A's elements with off lanes replaced, and its shape. -/
def reduceInputs (F : Fire) : Except Word (Nat × Nat × List Nat) :=
  match vecShape F (· == vIF F.cfg) (fun _ => true) false with
  | .error d => .error d
  | .ok (r, c) =>
    match maskOf F (r * c) with
    | none => .error F.va.desc
    | some m =>
      let as := F.va.elems (vIF F.cfg) (r * c)
      .ok (r, c, mergeLanes (bit F.cfg 21) m as as)

/-- R196: a reduction along AXIS. -/
def outReduce (g : Fire → List Nat → Nat) (F : Fire) : FireOut :=
  let ofm := vOF F.cfg
  match reduceInputs F with
  | .error d => .fault cTILESHAPE d
  | .ok (r, c, v) =>
    let rows := chunksOf (r + 1) c v
    match field F.cfg 0 2 with
    | 0 => if describable ofm r 1 then F.tileOut ofm r 1 (rows.map (g F)) else .fault cTILESHAPE F.va.desc
    | 1 => if describable ofm 1 c then F.tileOut ofm 1 c ((columnsOf c rows).map (g F)) else .fault cTILESHAPE F.va.desc
    | _ => F.data (scalarWord ofm (g F v))

/-- R196 VSCAN. -/
def outScan (F : Fire) : FireOut :=
  let ofm := vOF F.cfg
  match reduceInputs F with
  | .error d => .fault cTILESHAPE d
  | .ok (r, c, v) =>
    if !describable ofm r c then .fault cTILESHAPE F.va.desc
    else
      let rows := chunksOf (r + 1) c v
      let res := match field F.cfg 0 2 with
        | 0 => rows.flatMap (scanOf F)
        | 1 => (columnsOf r ((columnsOf c rows).map (scanOf F))).flatMap id
        | _ => scanOf F v
      F.tileOut ofm r c res

/-! Movement (R197 to R200) -/

/-- A's shape and elements, A being a tile of format IF; else the fault value of R183. -/
def tileA (F : Fire) : Except Word (Nat × Nat × List Nat) :=
  match vecShape F (· == vIF F.cfg) (fun _ => true) false with
  | .error d => .error d
  | .ok (r, c) => .ok (r, c, F.va.elems (vIF F.cfg) (r * c))

/-- R197 VTRANS. -/
def outVtrans (F : Fire) : FireOut :=
  match tileA F with
  | .error d => .fault cTILESHAPE d
  | .ok (r, c, v) =>
    if !describable (vOF F.cfg) c r then .fault cTILESHAPE F.va.desc
    else F.tileOut (vOF F.cfg) c r ((columnsOf c (chunksOf (r + 1) c v)).flatMap id)

/-- R198: the shape that K names. -/
def shapeK (F : Fire) : Nat × Nat := (field F.cfg 38 6 + 1, (field F.cfg 32 6 + 1) * colMult (vOF F.cfg))

/-- R198 VBCAST; an A of a wrong shape faults with A's descriptor as its value. (DESIGN CHOICE, unsafe: log 131.) -/
def outVbcast (F : Fire) : FireOut :=
  let ofm := vOF F.cfg
  let k := shapeK F
  match field F.cfg 0 2 with
  | 0 =>
    if !describable ofm k.1 k.2 then .fault cTILESHAPE F.va.desc
    else F.tileOut ofm k.1 k.2 (List.replicate (k.1 * k.2) (F.a.tok.payload.toNat % 2 ^ fmtBits ofm))
  | 1 =>
    match tileA F with
    | .error d => .fault cTILESHAPE d
    | .ok (r, c, v) =>
      if r ≠ 1 || !describable ofm k.1 c then .fault cTILESHAPE F.va.desc
      else F.tileOut ofm k.1 c ((List.replicate k.1 v).flatMap id)
  | _ =>
    match tileA F with
    | .error d => .fault cTILESHAPE d
    | .ok (r, c, v) =>
      if c ≠ 1 || !describable ofm r k.2 then .fault cTILESHAPE F.va.desc
      else F.tileOut ofm r k.2 (v.flatMap (fun e => List.replicate k.2 e))

/-- R198 VZERO. -/
def outVzero (F : Fire) : FireOut :=
  let k := shapeK F
  if !describable (vOF F.cfg) k.1 k.2 then .fault cTILESHAPE F.va.desc
  else F.tileOut (vOF F.cfg) k.1 k.2 (List.replicate (k.1 * k.2) 0)

/-- R199 VPERM. -/
def outVperm (F : Fire) : FireOut :=
  let a := F.va
  let b := F.vb
  if badFormat a (· == vIF F.cfg) then .fault cTILESHAPE a.desc
  else if badFormat b fmtInt then .fault cTILESHAPE b.desc
  else if !a.isTile || !b.isTile then .fault cTILESHAPE 0
  else
    let r := dRows b.desc
    let c := dCols b.desc
    let v := a.elems (vIF F.cfg) 0
    let ks := b.elems (dFMT b.desc) 0
    if !describable (vOF F.cfg) r c then .fault cTILESHAPE a.desc
    else
      match ks.find? (fun k => decide (v.length ≤ k)) with
      | some k =>
        if bit F.cfg 0 then F.tileOut (vOF F.cfg) r c (ks.map (fun k => v.getD k 0)) else .fault cBOUNDS (word k)
      | none => F.tileOut (vOF F.cfg) r c (ks.map (fun k => v.getD k 0))

/-- R200 VEXTR. -/
def outVextr (F : Fire) : FireOut :=
  let f := vOF F.cfg
  let x := F.b.tok.payload.toNat
  match tileA F with
  | .error d => .fault cTILESHAPE d
  | .ok (r, c, v) =>
    match field F.cfg 0 2 with
    | 0 =>
      if r * c ≤ x then .fault cBOUNDS (word x)
      else .emit (F.both { F.tok .data (scalarWord f (v.getD x 0)) with btag := BitVec.ofNat 21 (field F.cfg 32 21) }) none []
    | 1 =>
      if !describable f 1 c then .fault cTILESHAPE F.va.desc
      else if r ≤ x then .fault cBOUNDS (word x)
      else F.tileOut f 1 c ((v.drop (x * c)).take c)
    | _ =>
      if !describable f r 1 then .fault cTILESHAPE F.va.desc
      else if c ≤ x then .fault cBOUNDS (word x)
      else F.tileOut f r 1 ((chunksOf (r + 1) c v).map (fun row => row.getD x 0))

/-- A list with the `n` elements from position `i` on replaced. -/
def spliceElems (v : List Nat) (i : Nat) (new : List Nat) : List Nat := v.take i ++ new ++ v.drop (i + new.length)

/-- R200 VINS. -/
def outVins (F : Fire) : FireOut :=
  let f := vOF F.cfg
  let x := field F.cfg 32 13
  let b := F.vb
  match tileA F with
  | .error d => .fault cTILESHAPE d
  | .ok (r, c, v) =>
    let mode := field F.cfg 0 2
    if mode = 0 then
      (if r * c ≤ x then .fault cBOUNDS (word x)
      else F.tileOut f r c (spliceElems v x [F.b.tok.payload.toNat % 2 ^ fmtBits f]))
    else if badFormat b (· == vIF F.cfg) then .fault cTILESHAPE b.desc
    else if !b.isTile || dRows b.desc ≠ (if mode = 1 then 1 else r) || dCols b.desc ≠ (if mode = 1 then c else 1) then
      .fault cTILESHAPE b.desc
    else if (if mode = 1 then r else c) ≤ x then .fault cBOUNDS (word x)
    else
      let es := b.elems f 0
      if mode = 1 then F.tileOut f r c (spliceElems v (x * c) es)
      else F.tileOut f r c ((List.zipWith (fun row e => spliceElems row x [e]) (chunksOf (r + 1) c v) es).flatMap id)

/-! Timing (R186, R149) -/

/-- The bytes of an operand's tile. -/
def VOperand.size (o : VOperand) : Nat :=
  match o with
  | .tile d _ => shapeBytes (dFMT d) (dRows d) (dCols d)
  | .val _ => 0

/-- The rows and columns of a tile operand; no shape for a scalar. -/
def VOperand.shape (o : VOperand) : Nat × Nat :=
  match o with
  | .tile d _ => (dRows d, dCols d)
  | .val _ => (0, 0)

/-- R184: the shape of a firing over lanes: that of A where A is a tile, else that of B. -/
def Fire.laneShape (F : Fire) : Nat × Nat := if F.va.isTile then F.va.shape else F.vb.shape

/-- R187: the tile results of a firing, those sent to DROP among them, each with its format, rows and columns; a shape that its operands do not give has no
rows. A firing that faults would have produced these. (DEDUCED, unsafe: log 114.) -/
def tileResults (F : Fire) : List (Nat × Nat × Nat) :=
  let o := vOF F.cfg
  let a := F.va.shape
  let k := shapeK F
  match wOPC F.w with
  | 0x76 => [(0x1, F.laneShape), (0x0, F.laneShape)]
  | 0x7F | 0x80 => match field F.cfg 0 2 with
    | 0 => [(o, a.1, 1)]
    | 1 => [(o, 1, a.2)]
    | _ => []
  | 0x82 => [(o, a.2, a.1)]
  | 0x83 => match field F.cfg 0 2 with
    | 0 => [(o, k)]
    | 1 => [(o, k.1, a.2)]
    | _ => [(o, a.1, k.2)]
  | 0x84 => [(o, F.vb.shape)]
  | 0x86 => match field F.cfg 0 2 with
    | 0 => []
    | 1 => [(o, 1, a.2)]
    | _ => [(o, a.1, 1)]
  | 0x88 => [(o, k)]
  | _ => [(o, F.laneShape)]

/-- R149: the bytes of a result; one whose shape is not describable counts as 4,096. -/
def resultSize (r : Nat × Nat × Nat) : Nat := if describable r.1 r.2.1 r.2.2 then shapeBytes r.1 r.2.1 r.2.2 else 4096

/-- The bytes of the largest tile result of a firing; the results of a poisoned one are no tiles (R336). -/
def resultBytes (F : Fire) : Nat := if F.poisonPayload.isSome then 0 else ((tileResults F).map resultSize).foldl max 0

/-- R186: ceil(Bmax / 256). -/
def beats (F : Fire) : Nat := (max (max F.va.size F.vb.size) (resultBytes F) + 255) / 256

/-- R186 class VE. -/
def spanVE (F : Fire) : Span := ⟨2 + beats F, beats F⟩

/-- R186 class VM. -/
def spanVM (F : Fire) : Span := ⟨2 + 2 * beats F, 2 * beats F⟩

/-- The element count of A. -/
def lanesIn (F : Fire) : Nat := if F.va.isTile then dRows F.va.desc * dCols F.va.desc else 1

/-- R186 class VS. -/
def spanVS (F : Fire) : Span := ⟨4 + (lanesIn F + 15) / 16, (lanesIn F + 15) / 16⟩

/-- R186 class VR. -/
def spanVR (F : Fire) : Span :=
  let n := match field F.cfg 0 2 with
    | 0 => if F.va.isTile then dCols F.va.desc else 1
    | 1 => if F.va.isTile then dRows F.va.desc else 1
    | _ => lanesIn F
  ⟨2 + beats F + log2Up n, beats F + log2Up n⟩

/-- R187: VSEL takes its condition from an integer tile. -/
def outVsel (F : Fire) : FireOut := laneOp fmtInt (· == vIF F.cfg) true laneSel F

/-- R188. -/
def execVadd (a b x y t n : BitVec 4) (s : State) : Result := .next (fire s (.vadd a b x y t n) spanVE (laneTwo laneAdd))

/-- R188. -/
def execVsub (a b x y t n : BitVec 4) (s : State) : Result := .next (fire s (.vsub a b x y t n) spanVE (laneTwo laneSub))

/-- R188. -/
def execVmul (a b x y t n : BitVec 4) (s : State) : Result := .next (fire s (.vmul a b x y t n) spanVE (laneTwo laneMul))

/-- R189. -/
def execVfma (a b x y t n : BitVec 4) (s : State) : Result := .next (fire s (.vfma a b x y t n) spanVE (laneTwo laneFma))

/-- R188. -/
def execVmin (a b x y t n : BitVec 4) (s : State) : Result := .next (fire s (.vmin a b x y t n) spanVE (laneTwo (fun F => fpPick false F.fp)))

/-- R188. -/
def execVmax (a b x y t n : BitVec 4) (s : State) : Result := .next (fire s (.vmax a b x y t n) spanVE (laneTwo (fun F => fpPick true F.fp)))

/-- R188. -/
def execVabs (a x y t n : BitVec 4) (s : State) : Result := .next (fire s (.vabs a x y t n) spanVE (laneOne (fpSign false)))

/-- R188. -/
def execVneg (a x y t n : BitVec 4) (s : State) : Result := .next (fire s (.vneg a x y t n) spanVE (laneOne (fpSign true)))

/-- R190. -/
def execViadd (a b x y t n : BitVec 4) (s : State) : Result := .next (fire s (.viadd a b x y t n) spanVE (laneTwo (laneInt (· + ·))))

/-- R190. -/
def execVisub (a b x y t n : BitVec 4) (s : State) : Result := .next (fire s (.visub a b x y t n) spanVE (laneTwo (laneInt (· - ·))))

/-- R190. -/
def execVimul (a b x y t n : BitVec 4) (s : State) : Result := .next (fire s (.vimul a b x y t n) spanVE (laneTwo (laneInt (· * ·))))

/-- R190. -/
def execVimin (a b x y t n : BitVec 4) (s : State) : Result := .next (fire s (.vimin a b x y t n) spanVE (laneTwo (fun F => intPick false (vIF F.cfg))))

/-- R190. -/
def execVimax (a b x y t n : BitVec 4) (s : State) : Result := .next (fire s (.vimax a b x y t n) spanVE (laneTwo (fun F => intPick true (vIF F.cfg))))

/-- R191. -/
def execVcmp (a b x y t n : BitVec 4) (s : State) : Result := .next (fire s (.vcmp a b x y t n) spanVE (laneTwo laneCmp))

/-- R192. -/
def execVsel (a b x y t n : BitVec 4) (s : State) : Result := .next (fire s (.vsel a b x y t n) spanVE outVsel)

/-- R193. -/
def execVand (a b x y t n : BitVec 4) (s : State) : Result := .next (fire s (.vand a b x y t n) spanVE (laneTwo (laneBits (· &&& ·))))

/-- R193. -/
def execVor (a b x y t n : BitVec 4) (s : State) : Result := .next (fire s (.vor a b x y t n) spanVE (laneTwo (laneBits (· ||| ·))))

/-- R193. -/
def execVxor (a b x y t n : BitVec 4) (s : State) : Result := .next (fire s (.vxor a b x y t n) spanVE (laneTwo (laneBits (· ^^^ ·))))

/-- R193. -/
def execVshl (a b x y t n : BitVec 4) (s : State) : Result := .next (fire s (.vshl a b x y t n) spanVE (laneTwo (laneShift 0)))

/-- R193. -/
def execVshr (a b x y t n : BitVec 4) (s : State) : Result := .next (fire s (.vshr a b x y t n) spanVE (laneTwo (laneShift 1)))

/-- R193. -/
def execVsar (a b x y t n : BitVec 4) (s : State) : Result := .next (fire s (.vsar a b x y t n) spanVE (laneTwo (laneShift 2)))

/-- R194. -/
def execVcvt (a x y t n : BitVec 4) (s : State) : Result := .next (fire s (.vcvt a x y t n) spanVE outVcvt)

/-- R194. -/
def execVsplit (a x y t n : BitVec 4) (s : State) : Result := .next (fire s (.vsplit a x y t n) spanVE outVsplit)

/-- R195. -/
def execVexp2 (a x y t n : BitVec 4) (s : State) : Result := .next (fire s (.vexp2 a x y t n) spanVS (laneOne (laneFn fnExp2)))

/-- R195. -/
def execVlog2 (a x y t n : BitVec 4) (s : State) : Result := .next (fire s (.vlog2 a x y t n) spanVS (laneOne (laneFn fnLog2)))

/-- R195. -/
def execVrcp (a x y t n : BitVec 4) (s : State) : Result := .next (fire s (.vrcp a x y t n) spanVS (laneOne (laneFn fnRcp)))

/-- R195. -/
def execVrsq (a x y t n : BitVec 4) (s : State) : Result := .next (fire s (.vrsq a x y t n) spanVS (laneOne (laneFn fnRsq)))

/-- R195. -/
def execVsqrt (a x y t n : BitVec 4) (s : State) : Result := .next (fire s (.vsqrt a x y t n) spanVS (laneOne (laneFn fnSqrt)))

/-- R195. -/
def execVsinpi (a x y t n : BitVec 4) (s : State) : Result := .next (fire s (.vsinpi a x y t n) spanVS (laneOne (laneFn fnSinpi)))

/-- R195. -/
def execVcospi (a x y t n : BitVec 4) (s : State) : Result := .next (fire s (.vcospi a x y t n) spanVS (laneOne (laneFn fnCospi)))

/-- R195. -/
def execVtanh (a x y t n : BitVec 4) (s : State) : Result := .next (fire s (.vtanh a x y t n) spanVS (laneOne (laneFn fnTanh)))

/-- R196. -/
def execVrsum (a x y t n : BitVec 4) (s : State) : Result := .next (fire s (.vrsum a x y t n) spanVR (outReduce reduceSum))

/-- R196. -/
def execVrmax (a x y t n : BitVec 4) (s : State) : Result := .next (fire s (.vrmax a x y t n) spanVR (outReduce reduceMax))

/-- R196. -/
def execVscan (a x y t n : BitVec 4) (s : State) : Result := .next (fire s (.vscan a x y t n) spanVR outScan)

/-- R197. -/
def execVtrans (a x y t n : BitVec 4) (s : State) : Result := .next (fire s (.vtrans a x y t n) spanVM outVtrans)

/-- R198. -/
def execVbcast (a x y t n : BitVec 4) (s : State) : Result := .next (fire s (.vbcast a x y t n) spanVM outVbcast)

/-- R199. -/
def execVperm (a b x y t n : BitVec 4) (s : State) : Result := .next (fire s (.vperm a b x y t n) spanVM outVperm)

/-- R200. -/
def execVextr (a b x y t n : BitVec 4) (s : State) : Result := .next (fire s (.vextr a b x y t n) spanVM outVextr)

/-- R200. -/
def execVins (a b x y t n : BitVec 4) (s : State) : Result := .next (fire s (.vins a b x y t n) spanVM outVins)

/-- R198. -/
def execVzero (a x y t n : BitVec 4) (s : State) : Result := .next (fire s (.vzero a x y t n) spanVM outVzero)

/-- R192. -/
def execVclamp (a b x y t n : BitVec 4) (s : State) : Result := .next (fire s (.vclamp a b x y t n) spanVE (laneTwo laneClamp))

end Sys2Proof.Machine
end

