-- ==== Sys2Proof/Machine/Matrix.lean ====
section
/-! DEFINITION. The matrix operators (R201 to R209) and the coded weight blocks they read (R130, R131). -/

namespace Sys2Proof.Machine

/-! The attribute word (R202) -/

def mAF (w : Word) : Nat := field w 60 4
def mBF (w : Word) : Nat := field w 56 4
def mOF (w : Word) : Nat := field w 52 4
def mRM (w : Word) : Nat := field w 50 2
def mAK (w : Word) : Bool := bit w 49
def mACC (w : Word) : Nat := field w 28 4

/-! Accumulators (R81, R201) -/

/-- The place of an accumulator in the context's pool. -/
def accOff (c : Ctx) (n : Nat) : Nat := (pMSG c.part + pTSG c.part + n) * 4096

/-- The 1,024 lanes of an accumulator, row by row. -/
def accLanes (c : Ctx) (n : Nat) : List Nat := unpackElems 32 4096 (memRead c.pool (accOff c n) 4096)

/-- The effect of writing an accumulator's lanes. -/
def accPost (c : Ctx) (n : Nat) (v : List Nat) : Post := .pool (accOff c n) (v.flatMap (leBytes 4))

/-- R204: a completion token on D0 and, as copy, on D1. -/
def Fire.completion (F : Fire) (posts : List Post) : FireOut :=
  .emit (F.both (F.tok .data (word (mACC F.cfg)))) none posts

/-! Weight blocks (R130, R131) -/

/-- Stream bit `i` of a block: 16-bit little-endian units are bytes in order. -/
def streamBit (bs : List Byte) (i : Nat) : Bool := (bs.getD (i / 8) 0).getLsbD (i % 8)

/-- `n` stream bits from position `i`, the first the lowest. -/
def streamField (bs : List Byte) (i n : Nat) : Nat := ((List.range n).map (fun k => if streamBit bs (i + k) then 2 ^ k else 0)).sum

/-- R130: one exponent code at position `i`: the exponent and the code's length; none for a code that R131 refuses. -/
def expCode (bs : List Byte) (emax i : Nat) : Option (Nat × Nat) :=
  let one (k : Nat) := streamBit bs (i + k)
  let near (d : Nat) : Option (Nat × Nat) := if d ≤ emax then some (emax - d, d + 1) else none
  if !one 0 then near 0
  else if !one 1 then near 1
  else if !one 2 then near 2
  else if !one 3 then near 3
  else
    let e := 8 * (one 4).toNat + 4 * (one 5).toNat + 2 * (one 6).toNat + (one 7).toNat
    if e + 4 ≤ emax then some (e, 8) else none

/-- R130: the exponents of `n` elements from position `i`, with the position after them. -/
def expCodes (bs : List Byte) (emax : Nat) : Nat → Nat → Option (List Nat × Nat)
  | 0, i => some ([], i)
  | n + 1, i =>
    match expCode bs emax i with
    | none => none
    | some (e, l) => (expCodes bs emax n (i + l)).map (fun r => (e :: r.1, r.2))

/-- What reading a block from the bytes that are left gives. -/
inductive Block32 where
  /-- 32 decoded bytes and the bytes that the block takes -/
  | ok (ws : List Nat) (size : Nat)
  | past
  | malformed
  deriving DecidableEq, Repr

/-- R130, R131: a block read from the first of the bytes left in the weight buffer. -/
def readBlock (bs : List Byte) : Block32 :=
  if bs.length < 2 then .past
  else
    let len := streamField bs 0 11
    let size := (len + 15) / 16 * 2
    if streamBit bs 15 then
      (if len ≠ 272 then .malformed
      else if bs.length < size then .past
      else .ok (((bs.drop 2).take 32).map (·.toNat)) size)
    else if 272 < len || len < 144 then .malformed
    else if bs.length < size then .past
    else
      match expCodes bs (streamField bs 11 4) 32 144 with
      | none => .malformed
      | some (es, i) =>
        if i ≠ len then .malformed
        else
          .ok ((List.zip es (List.range 32)).map (fun p =>
            let nb := streamField bs (16 + 4 * p.2) 4
            nb / 8 * 128 + p.1 * 8 + nb % 8)) size

/-- R130: the bytes that a block takes, by its LEN; the fewest that a block can take where LEN is none of a block. (DEDUCED, unsafe: log 28.) -/
def blockSpan (bs : List Byte) : Nat :=
  let len := streamField bs 0 11
  if 144 ≤ len ∧ len ≤ 272 then (len + 15) / 16 * 2 else 18

/-- R205 row 6: where `n` coded blocks from offset `x` of a weight buffer end. -/
def blocksEnd (wb : List Byte) : Nat → Nat → Nat
  | 0, x => x
  | n + 1, x => blocksEnd wb n (x + blockSpan (wb.drop x))

/-- R208: `n` coded blocks in turn from offset `x` of a weight buffer. -/
def readBlocks (wb : List Byte) : Nat → Nat → Except (Nat × Nat) (List Nat)
  | 0, _ => .ok []
  | n + 1, x =>
    match readBlock (wb.drop x) with
    | .past => .error (cBOUNDS, 0)
    | .malformed => .error (cRESERVED, x)
    | .ok ws size =>
      match readBlocks wb n (x + size) with
      | .error e => .error e
      | .ok more => .ok (ws ++ more)

/-- R81: the context's weight buffer. -/
def weightBuffer (c : Ctx) : List Byte :=
  memRead c.pool ((pMSG c.part + pTSG c.part + pACG c.part) * 4096) (pWBG c.part * 4096)

/-- R205 rows 5 to 7, R208: the N × Kb weights of MMAW from offset `x`, or the fault with its value. -/
def weightRows (c : Ctx) (bf n kb x : Nat) : Except (Nat × Nat) (List Nat) :=
  if bf = 0xD then
    if x % 2 ≠ 0 then .error (cALIGNMENT, x)
    else if pWBG c.part * 4096 < blocksEnd (weightBuffer c) (n * (kb / 32)) x then .error (cBOUNDS, x)
    else
      match readBlocks (weightBuffer c) (n * (kb / 32)) x with
      | .error (e, v) => .error (e, if e = cBOUNDS then x else v)
      | .ok ws => .ok ws
  else if pWBG c.part * 4096 < x + n * kb then .error (cBOUNDS, x)
  else .ok (((weightBuffer c).drop x).take (n * kb) |>.map (·.toNat))

/-! Multiply and accumulate (R206) -/

/-- One lane over all groups: `as` and `bs` are a row of A and a row of the weights. -/
def laneRun (ak : Bool) (rm : Nat) (fa fb : Nat) (acc : Nat) (groups : List ((List Nat × List Nat) × (FpNum × FpNum))) : Nat :=
  groups.foldl (fun a g =>
    if ak then
      satInt32 (intVal 0x8 a + (List.zipWith (fun x y => intVal fa x * intVal fb y) g.1.1 g.1.2).foldl (· + ·) 0)
    else accGroup a (g.1.1.map (valueOf fa)) (g.1.2.map (valueOf fb)) g.2.1 g.2.2 rm) acc

/-- R206: the accumulator after a firing. -/
def mmaLanes (F : Fire) (m n kb : Nat) (fb : Nat) (av bv : List Nat) (scales : List (FpNum × FpNum)) : List Nat :=
  let rowsA := (chunksOf (m + 1) kb av).map (chunksOf (kb / 32 + 1) 32)
  let rowsB := (chunksOf (n + 1) kb bv).map (chunksOf (kb / 32 + 1) 32)
  (List.zip (accLanes F.c (mACC F.cfg)) (List.range 1024)).map (fun p =>
    let i := p.2 / 32
    let j := p.2 % 32
    if i < m ∧ j < n then
      laneRun (mAK F.cfg) (mRM F.cfg) (mAF F.cfg) fb p.1 (List.zip (List.zip (rowsA.getD i []) (rowsB.getD j [])) scales)
    else p.1)

/-- The value 1, the scale of unscaled forms. -/
def numOne : FpNum := .fin false 1 0

/-- R205 rows 1 to 4 for MMA and MMAS, then R206, given the scales of each group. -/
def mmaWith (scales : Nat → List (FpNum × FpNum)) (F : Fire) : FireOut :=
  let da := F.a.tok.payload
  let db := F.b.tok.payload
  if F.a.tok.kind != .tile || dFMT da != mAF F.cfg then .fault cTILESHAPE da
  else if F.b.tok.kind != .tile || dFMT db != mBF F.cfg then .fault cTILESHAPE db
  else if 32 < dRows da then .fault cTILESHAPE da
  else if 32 < dRows db then .fault cTILESHAPE db
  else if dCols db ≠ dCols da then .fault cTILESHAPE db
  else if dCols da % 32 ≠ 0 then .fault cTILESHAPE da
  else
    F.completion [accPost F.c (mACC F.cfg) (mmaLanes F (dRows da) (dRows db) (dCols da) (mBF F.cfg)
      (tileElems (dFMT da) (F.a.tok.tile.getD [])) (tileElems (dFMT db) (F.b.tok.tile.getD [])) (scales (dCols da / 32)))]

/-- R206 MMA. -/
def outMma : Fire → FireOut := mmaWith (fun g => List.replicate g (numOne, numOne))

/-- R128: the SC24 value of a scale token. -/
def scaleNum (t : Tok) : FpNum := valueOf 0xC (field t.payload 0 24)

/-- R207 MMAS: the first G scale tokens scale A's groups, the next G those of B. -/
def outMmas (F : Fire) : FireOut :=
  mmaWith (fun g => List.zip ((F.scales.take g).map scaleNum) ((F.scales.drop g).map scaleNum)) F

/-- R206, R208 MMAW. (DEDUCED, unsafe: log 28.) -/
def outMmaw (F : Fire) : FireOut :=
  let da := F.a.tok.payload
  let n := field F.cfg 42 5 + 1
  if F.a.tok.kind != .tile || dFMT da != mAF F.cfg then .fault cTILESHAPE da
  else if 32 < dRows da then .fault cTILESHAPE da
  else if dCols da % 32 ≠ 0 then .fault cTILESHAPE da
  else
    match weightRows F.c (mBF F.cfg) n (dCols da) F.b.tok.payload.toNat with
    | .error (e, v) => .fault e (word v)
    | .ok ws =>
      F.completion [accPost F.c (mACC F.cfg) (mmaLanes F (dRows da) n (dCols da) 0x3
        (tileElems (dFMT da) (F.a.tok.tile.getD [])) ws (List.replicate (dCols da / 32) (numOne, numOne)))]

/-! Accumulator operators (R209) -/

/-- R209 ACCZ. -/
def outAccz (F : Fire) : FireOut := F.completion [accPost F.c (mACC F.cfg) (List.replicate 1024 0)]

/-- The format of an accumulator's lanes. -/
def accFmt (w : Word) : Nat := if mAK w then 0x8 else 0x0

/-- R209 ACCRD. -/
def outAccrd (F : Fire) : FireOut :=
  let r := field F.cfg 37 5 + 1
  let c := field F.cfg 32 5 + 1
  let lanes := accLanes F.c (mACC F.cfg)
  let vs := (chunksOf 33 32 lanes).take r |>.flatMap (fun row => (row.take c).map (valueOf (accFmt F.cfg)))
  let rs := vs.map (convert (mOF F.cfg) (mRM F.cfg))
  let sat := (List.zip vs rs).filterMap (fun p => if p.2.2 then some p.1 else none)
  .emit (F.put F.d0 (F.tileTok 0 (mOF F.cfg) r c 0xFF (rs.map (·.1))) ++ F.overflowOut sat) none
    (if bit F.cfg 48 then [accPost F.c (mACC F.cfg) (List.replicate 1024 0)] else [])

/-- R209: a tile that ACCLD and ACCADD take. -/
def accTileOk (F : Fire) (t : Tok) : Bool :=
  t.kind == .tile && dFMT t.payload == accFmt F.cfg && decide (dRows t.payload ≤ 32 ∧ dCols t.payload ≤ 32)

/-- The element of a tile at lane (i, j), if the tile has one there. -/
def tileAt (t : Tok) (i j : Nat) : Option Nat :=
  if i < dRows t.payload ∧ j < dCols t.payload then
    (tileElems (dFMT t.payload) (t.tile.getD []))[i * dCols t.payload + j]?
  else none

/-- The lanes of an accumulator changed at those that `g` gives a value. -/
def accMerge (F : Fire) (g : Nat → Nat → Option Nat) (f : Nat → Nat → Nat) : List Nat :=
  (List.zip (accLanes F.c (mACC F.cfg)) (List.range 1024)).map (fun p =>
    match g (p.2 / 32) (p.2 % 32) with
    | some v => f p.1 v
    | none => p.1)

/-- R209 ACCLD. -/
def outAccld (F : Fire) : FireOut :=
  if !accTileOk F F.a.tok then .fault cTILESHAPE F.a.tok.payload
  else F.completion [accPost F.c (mACC F.cfg) (accMerge F (tileAt F.a.tok) (fun _ v => v))]

/-- R209: the sum of two lanes. -/
def accAdd (w : Word) (a v : Nat) : Nat :=
  if mAK w then satInt32 (intVal 0x8 a + intVal 0x8 v)
  else arith fp32 (mRM w) (numAdd (mRM w) (decodeFp fp32 a) (decodeFp fp32 v))

/-- R209 ACCADD. -/
def outAccadd (F : Fire) : FireOut :=
  if bit F.cfg 47 then
    (if !accTileOk F F.b.tok then .fault cTILESHAPE F.b.tok.payload
    else F.completion [accPost F.c (mACC F.cfg) (accMerge F (tileAt F.b.tok) (accAdd F.cfg))])
  else
    let src := accLanes F.c (field F.cfg 24 4)
    F.completion [accPost F.c (mACC F.cfg) (accMerge F (fun i j => src[32 * i + j]?) (accAdd F.cfg))]

/-! Timing (R186, R203) -/

/-- R203: the cycles of one group. -/
def groupCost (w : Word) : Nat :=
  match mAF w with
  | 0x5 => 32
  | 0x1 => 128
  | 0x2 => 128
  | _ => 64

/-- R186 class MX. -/
def spanMX (F : Fire) : Span :=
  let n := 8 + (if F.a.tok.kind == .tile then dCols F.a.tok.payload else 0) * groupCost F.cfg / 32
  ⟨n, n⟩

/-- R186 class MA: 8, or 24 for ACCRD and ACCADD. -/
def spanMA (n : Nat) (_F : Fire) : Span := ⟨n, n⟩

/-- R186: ACCLD. -/
def spanAccld (F : Fire) : Span :=
  let n := 8 + (if F.a.tok.kind == .tile then ((F.a.tok.tile.getD []).length + 255) / 256 else 0)
  ⟨n, n⟩

/-- R206. -/
def execMma (a b x y t n : BitVec 4) (s : State) : Result := .next (fire s (.mma a b x y t n) spanMX outMma)

/-- R206, R207. -/
def execMmas (a b x y t n : BitVec 4) (s : State) : Result := .next (fire s (.mmas a b x y t n) spanMX outMmas)

/-- R206, R208. -/
def execMmaw (a b x y t n : BitVec 4) (s : State) : Result := .next (fire s (.mmaw a b x y t n) spanMX outMmaw)

/-- R209. -/
def execAccz (a x y t n : BitVec 4) (s : State) : Result := .next (fire s (.accz a x y t n) (spanMA 8) outAccz)

/-- R209. -/
def execAccrd (a x y t n : BitVec 4) (s : State) : Result := .next (fire s (.accrd a x y t n) (spanMA 24) outAccrd)

/-- R209. -/
def execAccld (a x y t n : BitVec 4) (s : State) : Result := .next (fire s (.accld a x y t n) spanAccld outAccld)

/-- R209. -/
def execAccadd (a b x y t n : BitVec 4) (s : State) : Result := .next (fire s (.accadd a b x y t n) (spanMA 24) outAccadd)

end Sys2Proof.Machine
end

