-- ==== Sys2Proof/Machine/Control.lean ====
section
/-! DEFINITION. The control operators of the element (R143 to R171): routing and joining, loops and grants, counters, speculation, frames,
events, traps and breakpoints. -/

namespace Sys2Proof.Machine

/-! Routing, joining and constants (R151) -/

/-- R151 STEER. -/
def outSteer (F : Fire) : FireOut :=
  .emit (if F.b.tok.payload != 0 then F.put F.d0 (F.pass F.a) else F.put F.d1 (F.pass F.a)) none []

/-- R151 MERGE: the one consumed token. -/
def outMerge (F : Fire) : FireOut := .emit (F.both (F.pass (if F.a.fromMs then F.a else F.b))) none []

/-- R151 GATE, COPY and the operators that pass A on. -/
def outPass (F : Fire) : FireOut := .emit (F.both (F.pass F.a)) none []

/-- R151 SINK. -/
def outSink (_F : Fire) : FireOut := .emit [] none []

/-! Loops and grants (R152 to R154) -/

/-- R153: a credit word. -/
def creditWord (typ g base : Nat) : Word := word (at' typ 62 + at' (g % 64) 16 + base % 65536)

/-- R152: the slot-state word of a grant-bounded LCARRY after a credit word. -/
def lcarryCredit (iw : Nat) (sw cw : Word) : Word :=
  match field cw 62 2 with
  | 0 => word (at' 1 63 + at' (field cw 16 6) 48 + field cw 0 16 % 2 ^ (16 - iw))
  | 1 => setField sw 0 16 ((field sw 0 16 + 1) % 2 ^ (16 - iw))
  | 2 => setBit sw 63 false
  | _ => sw

/-- R152: the next iteration of a carried token. -/
def nextIter (iw : Nat) (outerField : Bool) (i : BitVec 16) : BitVec 16 :=
  if outerField then mkIter iw (outer iw i + 1) 0 else mkIter iw (outer iw i) (inner iw i + 1)

/-- R152 LCARRY. -/
def outLcarry (F : Fire) : FireOut :=
  let iw := ccwIW F.c.ccw
  if bit F.cfg 1 && !F.a.fromMs then .emit [] (some (lcarryCredit iw F.sw F.b.tok.payload)) []
  else
    let t := F.pass F.a
    .emit (F.both { t with iter := nextIter iw (bit F.cfg 0) t.iter }) none []

/-- R92, R154 COLALLOC. -/
def outColalloc (F : Fire) : FireOut :=
  let q := msFree F.c / field F.cfg 0 12
  let g := if q = 0 then 1 else min (field F.cfg 12 6) q
  F.data (creditWord 0 g (outer (ccwIW F.c.ccw) F.tag.iter))

/-- R154 COLRET. -/
def outColret (F : Fire) : FireOut := F.data (creditWord (if bit F.cfg 0 then 2 else 1) 0 0)

/-! Counters, bounds and END tokens (R155 to R159) -/

/-- R157: the state word at a firing: a start takes the latest BOUND token's trip counts and begins at 0. -/
def counterState (F : Fire) : Word :=
  if bit F.sw 63 then F.sw
  else word (at' 1 63 + at' (if F.b.fromMs then field F.b.tok.payload 32 31 else field F.sw 32 31) 32)

/-- R155: an END token. -/
def Fire.endTok (F : Fire) (level : Nat) (items : Nat) : Tok :=
  { F.tok .fin (word items) with level := BitVec.ofNat 3 level }

/-- R157 Finish: the trip counts are kept. -/
def counterDone (sw : Word) : Word := word (at' (field sw 32 31) 32)

/-- R156: an item of COUNT. -/
def countItem (F : Fire) (i : Nat) : Tok :=
  let iw := ccwIW F.c.ccw
  let t := F.tok .data (word i)
  match field F.cfg 0 2 with
  | 1 => { t with iter := mkIter iw (outer iw t.iter) i }
  | 2 => { t with iter := mkIter iw i (inner iw t.iter) }
  | _ => t

/-- R157 COUNT. -/
def outCount (F : Fire) : FireOut :=
  let sw := counterState F
  let n := field sw 32 31
  let i := field sw 0 32
  if i < n then .emit (F.put F.d0 (countItem F i)) (some (setField sw 0 32 (i + 1))) []
  else .emit (F.put F.d0 (F.endTok 1 n)) (some (counterDone sw)) []

/-- R157: a counter in two dimensions with the item of (I, J). -/
def outCounter2 (item : Fire → Nat → Nat → Tok) (F : Fire) : FireOut :=
  let sw := counterState F
  let n1 := field sw 48 15
  let n0 := field sw 32 16
  let j := field sw 16 16
  let i := field sw 0 16
  if n0 = 0 ∨ n1 = 0 then .emit (F.put F.d0 (F.endTok 2 0)) (some (counterDone sw)) []
  else if i < n0 then .emit (F.put F.d0 (item F i j)) (some (setField sw 0 16 (i + 1))) []
  else if j = n1 - 1 then .emit (F.put F.d0 (F.endTok 2 n0)) (some (counterDone sw)) []
  else .emit (F.put F.d0 (F.endTok 1 n0)) (some (setField (setField sw 0 16 0) 16 16 (j + 1))) []

/-- R156: an item of COUNT2. -/
def count2Item (F : Fire) (i j : Nat) : Tok :=
  let t := F.tok .data (word (at' j 32 + i))
  if field F.cfg 0 2 = 1 then { t with iter := mkIter (ccwIW F.c.ccw) j i } else t

/-- R158 BOUND. -/
def outBound (F : Fire) : FireOut := .emit (F.both (F.tok .bound F.a.tok.payload)) none []

/-- R159 ENDQ. -/
def outEndq (F : Fire) : FireOut :=
  let high := F.a.tok.kind == .fin && decide (field F.cfg 0 3 ≤ F.a.tok.level.toNat)
  .emit (F.put (if high then F.d1 else F.d0) (F.pass F.a)) none []

/-! Speculation (R160 to R162) -/

/-- R160: a payload read as a colour set. -/
def colourSet (w : Word) : Word := w &&& 0x7F

/-- A token with SPEC 0. -/
def committed (t : Tok) : Tok := { t with spec := 0 }

/-- R161 SPECT. -/
def outSpect (F : Fire) : FireOut :=
  if F.a.fromMs then
    match freeColour F.cfg F.sw with
    | some k =>
      .emit (F.put F.d0 { F.pass F.a with spec := BitVec.ofNat 3 (k + 1) }
          ++ F.put F.d1 (committed (F.tok .data (word (at' 1 k)))))
        (some (setBit F.sw k true)) []
    | none => .fault cCOLOUR F.cfg
  else .emit [] (some (F.sw &&& ~~~(colourSet F.b.tok.payload))) []

/-- R162 COMMIT. -/
def outCommit (F : Fire) : FireOut :=
  let cs := colourSet F.a.tok.payload
  .emit ((if F.b.tok.payload != 0 then F.put F.d0 (committed (F.tok .commit cs)) else [])
    ++ F.put F.d1 (committed (F.tok .data cs))) none []

/-- R162 KILL. -/
def outKill (F : Fire) : FireOut := .emit (F.both (committed (F.tok .kill (colourSet F.a.tok.payload)))) none []

/-- R162 LEXIT. -/
def outLexit (F : Fire) : FireOut :=
  if F.b.tok.payload != 0 then .emit [] none []
  else
    let t := committed (F.pass F.a)
    .emit (F.put F.d0 { t with iter := mkIter (ccwIW F.c.ccw) (outer (ccwIW F.c.ccw) t.iter) 0 }
      ++ F.putRaw F.d1 (committed (F.tok .kill (colourSet F.cfg)))) none []

/-- R162 PACK. -/
def outPack (F : Fire) : FireOut := F.data (colourSet (F.a.tok.payload ||| F.b.tok.payload))

/-- R162 UNPACK. -/
def outUnpack (F : Fire) : FireOut :=
  let cs := colourSet F.a.tok.payload
  let low := cs &&& (0 - cs)
  .emit (F.put F.d0 (F.tok .data low) ++ F.put F.d1 (F.tok .data (cs &&& ~~~low))) none []

/-! Frames (R167) -/

/-- R144: a result for a frame counts in the custody of the firing's own frame until it is accepted, where that is another frame. -/
def Fire.toFrame (F : Fire) (t : Tok) (f g : Nat) : Tok :=
  { t with frame := BitVec.ofNat 10 f, gen := BitVec.ofNat 2 g,
           cust := if f % 1024 = F.tag.frame.toNat then none else some (F.tag.frame.toNat, F.tag.gen.toNat) }

/-- R167 FNEW. -/
def outFnew (F : Fire) : FireOut :=
  let b := F.b.tok.payload
  let go (t : Tok) : Tok := { F.toFrame t (field b 0 10) (field b 10 2) with iter := 0 }
  let cont := word (at' F.tag.iter.toNat 12 + at' F.tag.gen.toNat 10 + F.tag.frame.toNat)
  .emit (F.put F.d0 (go (F.pass F.a)) ++ F.put F.d1 (go (F.tok .data cont))) none []

/-- R167 FRET. -/
def outFret (F : Fire) : FireOut :=
  let b := F.b.tok.payload
  .emit (F.put F.d0 { F.toFrame (F.pass F.a) (field b 0 10) (field b 10 2) with iter := BitVec.ofNat 16 (field b 12 16) }) none []

/-! Events, traps and breakpoints (R168 to R171) -/

/-- R168, R170 EVSET. -/
def outEvset (F : Fire) : FireOut :=
  if atEventCluster F.e F.c then .emit (F.both (F.pass F.a)) none [.event (field F.cfg 8 2) (field F.cfg 0 8)]
  else .emit [] none [.entry (F.entry 0 none)]

/-- R168: the slot-state word of an EVWAIT after a firing. -/
def evwaitState (F : Fire) : Option Word := if bit F.cfg 8 then none else some (setBit F.sw 0 (!bit F.sw 0))

/-- R168, R170 EVWAIT. -/
def outEvwait (F : Fire) : FireOut :=
  if atEventCluster F.e F.c then .emit (F.both (F.pass F.a)) (evwaitState F) []
  else .emit [] none [.entry (F.entry 0 none)]

/-- R170: an event operation sent from another cluster lasts as a memory firing does. -/
def spanEvent (F : Fire) : Span := if atEventCluster F.e F.c then spanOne else ⟨2, 1⟩

/-- R168: EVWAIT with CLR = 1 at its own event cluster clears the bit as its firing starts. -/
def evwaitClears (s : State) (i : Instr) : State :=
  match s.site with
  | some t =>
    let F := fireOf s t
    if some F.w == encode i && bit F.cfg 8 && atEventCluster t.e F.c then eventOp s F.c.evcl 1 (field F.cfg 0 8) else s
  | none => s

/-- R170: the phase of an EVWAIT with CLR = 0 away from its event cluster toggles as its firing starts, the test carrying the phase before it. -/
def evwaitToggles (s : State) (i : Instr) (t' : State) : State :=
  match s.site with
  | some t =>
    let F := fireOf s t
    if some F.w == encode i && !bit F.cfg 8 && !atEventCluster t.e F.c && F.poisonPayload.isNone then
      t'.updCtx t.e t.x (fun c => { c with sw := vset c.sw t.k (setBit F.sw 0 (!bit F.sw 0)) })
    else t'
  | none => t'

/-- R171 TRAP. -/
def outTrap (F : Fire) : FireOut := if F.b.tok.payload != 0 then .fault cTRAPOP F.a.tok.payload else outPass F

/-- R171 BRKP. -/
def outBrkp (F : Fire) : FireOut :=
  if bit F.cfg 63 && decide (field F.cfg 0 32 ≤ F.sw.toNat + 1) then .fault cTRAPOP F.sw
  else .emit (F.both (F.pass F.a)) (some (F.sw + 1)) []

/-- R151. -/
def execSteer (a b x y t n : BitVec 4) (s : State) : Result := .next (fire s (.steer a b x y t n) (fun _ => spanOne) outSteer)

/-- R151. -/
def execMerge (a b x y t n : BitVec 4) (s : State) : Result := .next (fire s (.merge a b x y t n) (fun _ => spanOne) outMerge)

/-- R152. -/
def execLcarry (a b x y t n : BitVec 4) (s : State) : Result := .next (fire s (.lcarry a b x y t n) (fun _ => spanOne) outLcarry)

/-- R162. -/
def execLexit (a b x y t n : BitVec 4) (s : State) : Result := .next (fire s (.lexit a b x y t n) (fun _ => spanOne) outLexit)

/-- R157. -/
def execCount (a b x n : BitVec 4) (s : State) : Result := .next (fire s (.count a b x n) (fun _ => spanOne) outCount)

/-- R157. -/
def execCount2 (a b x n : BitVec 4) (s : State) : Result := .next (fire s (.count2 a b x n) (fun _ => spanOne) (outCounter2 count2Item))

/-- R158. -/
def execBound (a x y t n : BitVec 4) (s : State) : Result := .next (fire s (.bound a x y t n) (fun _ => spanOne) outBound)

/-- R159. -/
def execEndq (a x y t n : BitVec 4) (s : State) : Result := .next (fire s (.endq a x y t n) (fun _ => spanOne) outEndq)

/-- R151. -/
def execGate (a b x y t n : BitVec 4) (s : State) : Result := .next (fire s (.gate a b x y t n) (fun _ => spanOne) outPass)

/-- R151. -/
def execJoin (a b x y t n : BitVec 4) (s : State) : Result := .next (fire s (.join a b x y t n) (fun _ => spanOne) (fun F => F.data 0))

/-- R151. -/
def execCopy (a x y t n : BitVec 4) (s : State) : Result := .next (fire s (.copy a x y t n) (fun _ => spanOne) outPass)

/-- R151. -/
def execSink (a t n : BitVec 4) (s : State) : Result := .next (fire s (.sink a t n) (fun _ => spanOne) outSink)

/-- R151. -/
def execConst (a x y t n : BitVec 4) (s : State) : Result := .next (fire s (.const a x y t n) (fun _ => spanOne) (fun F => F.data F.cfg))

/-- R161. -/
def execSpect (a b x y t n : BitVec 4) (s : State) : Result := .next (fire s (.spect a b x y t n) (fun _ => spanOne) outSpect)

/-- R162. -/
def execCommit (a b x y n : BitVec 4) (s : State) : Result := .next (fire s (.commit a b x y n) (fun _ => spanOne) outCommit)

/-- R162. -/
def execKill (a x y n : BitVec 4) (s : State) : Result := .next (fire s (.kill a x y n) (fun _ => spanOne) outKill)

/-- R167. -/
def execFnew (a b x y n : BitVec 4) (s : State) : Result := .next (fire s (.fnew a b x y n) (fun _ => spanOne) outFnew)

/-- R167. -/
def execFret (a b x n : BitVec 4) (s : State) : Result := .next (fire s (.fret a b x n) (fun _ => spanOne) outFret)

/-- R154. -/
def execColalloc (a x y t n : BitVec 4) (s : State) : Result := .next (fire s (.colalloc a x y t n) (fun _ => spanOne) outColalloc)

/-- R154. -/
def execColret (a x y t n : BitVec 4) (s : State) : Result := .next (fire s (.colret a x y t n) (fun _ => spanOne) outColret)

/-- R162. -/
def execPack (a b x y t n : BitVec 4) (s : State) : Result := .next (fire s (.pack a b x y t n) (fun _ => spanOne) outPack)

/-- R162. -/
def execUnpack (a x y t n : BitVec 4) (s : State) : Result := .next (fire s (.unpack a x y t n) (fun _ => spanOne) outUnpack)

/-- R171. -/
def execTrap (a b x y t n : BitVec 4) (s : State) : Result := .next (fire s (.trap a b x y t n) (fun _ => spanOne) outTrap)

/-- R171. -/
def execBrkp (a x y t n : BitVec 4) (s : State) : Result := .next (fire s (.brkp a x y t n) (fun _ => spanOne) outBrkp)

/-- R168, R170. -/
def execEvset (a x y t n : BitVec 4) (s : State) : Result := .next (fire s (.evset a x y t n) spanEvent outEvset)

/-- R168, R170. -/
def execEvwait (a x y t n : BitVec 4) (s : State) : Result :=
  .next (evwaitToggles s (.evwait a x y t n) (fire (evwaitClears s (.evwait a x y t n)) (.evwait a x y t n) spanEvent outEvwait))

end Sys2Proof.Machine
end

