-- ==== Sys2Proof/Machine/Scalar.lean ====
section
/-! DEFINITION. The scalar and address operators of the element (R172 to R177). -/

namespace Sys2Proof.Machine

/-- R172: a scalar result of both payloads. -/
def outScalar (f : Word → Word → Word) (F : Fire) : FireOut := F.data (f F.a.tok.payload F.b.tok.payload)

/-- R172: a scalar result of A alone. -/
def outUnary (f : Word → Word) (F : Fire) : FireOut := F.data (f F.a.tok.payload)

/-- R149: class C3. -/
def spanMul : Span := ⟨3, 1⟩

/-- R149: class CD. -/
def spanDiv : Span := ⟨34, 34⟩

/-- R173, R174 IDIV. -/
def outIdiv (F : Fire) : FireOut :=
  let a := F.a.tok.payload
  let b := F.b.tok.payload
  if bit F.cfg 1 && b == 0 then .fault cDIVZERO b
  else if bit F.cfg 2 && !bit F.cfg 0 && a == 0x8000000000000000#64 && b == BitVec.allOnes 64 then .fault cOVERFLOW a
  else F.data (if bit F.cfg 0 then aluDivu a b else aluDiv a b)

/-- R173, R174 IREM. -/
def outIrem (F : Fire) : FireOut :=
  let a := F.a.tok.payload
  let b := F.b.tok.payload
  if bit F.cfg 1 && b == 0 then .fault cDIVZERO b
  else F.data (if bit F.cfg 0 then aluRemu a b else aluRem a b)

/-- R173: the conditions of CMP. -/
def cmpCond (c : Nat) (a b : Word) : Bool :=
  match c with
  | 0 => a == b
  | 1 => a != b
  | 2 => a.slt b
  | 3 => !a.slt b
  | 4 => a.ult b
  | 5 => !a.ult b
  | _ => false

/-- R172, R173 CMP. -/
def outCmp (F : Fire) : FireOut := F.data (flag (cmpCond (field F.cfg 0 3) F.a.tok.payload F.b.tok.payload))

/-- R172, R173 SEL. -/
def outSel (F : Fire) : FireOut := F.data (if F.a.tok.payload != 0 then F.b.tok.payload else F.cfg)

/-- R172, R173 BFX. -/
def outBfx (F : Fire) : FireOut :=
  let o := field F.cfg 0 8
  let w := field F.cfg 8 8
  F.data (if bit F.cfg 16 then bitExtractSigned F.a.tok.payload o w else bitExtract F.a.tok.payload o w)

/-- R172, R173 BFI. -/
def outBfi (F : Fire) : FireOut :=
  F.data (bitInsert F.a.tok.payload F.b.tok.payload (field F.cfg 0 8) (field F.cfg 8 8))

/-- An integer clamped to a range. -/
def clampInt (lo hi z : Int) : Int := max lo (min hi z)

/-- R172, R174 ADDSAT. -/
def outAddsat (F : Fire) : FireOut :=
  let a := F.a.tok.payload
  let b := F.b.tok.payload
  let z : Int := if bit F.cfg 0 then ((a.toNat + b.toNat : Nat) : Int) else a.toInt + b.toInt
  let y := if bit F.cfg 0 then clampInt 0 (2 ^ 64 - 1) z else clampInt (-(2 ^ 63)) (2 ^ 63 - 1) z
  if bit F.cfg 2 && z != y then .fault cOVERFLOW a else F.data (wordI y)

/-- R172, R174 ABS. -/
def outAbs (F : Fire) : FireOut :=
  let a := F.a.tok.payload
  if a == 0x8000000000000000#64 then
    (if bit F.cfg 2 then .fault cOVERFLOW a else F.data 0x7FFFFFFFFFFFFFFF#64)
  else F.data (if a.toInt < 0 then 0 - a else a)

/-! Address operators (R175 to R177) -/

/-- R175: an address token's payload: STREAM and the address modulo 2^58. -/
def addressWord (stream : Nat) (va : Int) : Word := word (at' stream 61 + (va % 2 ^ 58).toNat)

/-- R175: the virtual address of an address token. -/
def vaOf (w : Word) : Nat := field w 0 58

/-- R176: an item of AGEN. -/
def agenItem (F : Fire) (i j : Nat) : Tok :=
  let a := F.a.tok.payload
  F.tok .data (addressWord (streamOf a)
    (vaOf a + i * signed 32 (field F.cfg 0 32) + j * signed 32 (field F.cfg 32 32)))

/-- R177 AINC. -/
def outAinc (F : Fire) : FireOut :=
  let a := F.a.tok.payload
  F.data (addressWord (streamOf a) (vaOf a + F.b.tok.payload.toInt))

/-- R177 AIDX. -/
def outAidx (F : Fire) : FireOut :=
  let a := F.a.tok.payload
  let b := F.b.tok.payload
  if bit F.cfg 7 && decide (field F.cfg 32 32 ≤ a.toNat) then .fault cBOUNDS a
  else
    let x : Int := if bit F.cfg 6 then a.toInt else (a.toNat : Int)
    F.data (addressWord (streamOf b) (vaOf b + x * 2 ^ field F.cfg 0 6))

/-- R172. -/
def execIadd (a b x y t n : BitVec 4) (s : State) : Result := .next (fire s (.iadd a b x y t n) (fun _ => spanOne) (outScalar aluAdd))

/-- R172. -/
def execIsub (a b x y t n : BitVec 4) (s : State) : Result := .next (fire s (.isub a b x y t n) (fun _ => spanOne) (outScalar aluSub))

/-- R172. -/
def execElAnd (a b x y t n : BitVec 4) (s : State) : Result := .next (fire s (.elAnd a b x y t n) (fun _ => spanOne) (outScalar aluAnd))

/-- R172. -/
def execElOr (a b x y t n : BitVec 4) (s : State) : Result := .next (fire s (.elOr a b x y t n) (fun _ => spanOne) (outScalar aluOr))

/-- R172. -/
def execElXor (a b x y t n : BitVec 4) (s : State) : Result := .next (fire s (.elXor a b x y t n) (fun _ => spanOne) (outScalar aluXor))

/-- R172. -/
def execElAndn (a b x y t n : BitVec 4) (s : State) : Result := .next (fire s (.elAndn a b x y t n) (fun _ => spanOne) (outScalar aluAndn))

/-- R172. -/
def execElShl (a b x y t n : BitVec 4) (s : State) : Result := .next (fire s (.elShl a b x y t n) (fun _ => spanOne) (outScalar aluShl))

/-- R172. -/
def execElShr (a b x y t n : BitVec 4) (s : State) : Result := .next (fire s (.elShr a b x y t n) (fun _ => spanOne) (outScalar aluShr))

/-- R172. -/
def execElSar (a b x y t n : BitVec 4) (s : State) : Result := .next (fire s (.elSar a b x y t n) (fun _ => spanOne) (outScalar aluSar))

/-- R172. -/
def execElRot (a b x y t n : BitVec 4) (s : State) : Result := .next (fire s (.elRot a b x y t n) (fun _ => spanOne) (outScalar aluRot))

/-- R172. -/
def execElMin (a b x y t n : BitVec 4) (s : State) : Result := .next (fire s (.elMin a b x y t n) (fun _ => spanOne) (outScalar aluMin))

/-- R172. -/
def execElMax (a b x y t n : BitVec 4) (s : State) : Result := .next (fire s (.elMax a b x y t n) (fun _ => spanOne) (outScalar aluMax))

/-- R172. -/
def execElMinu (a b x y t n : BitVec 4) (s : State) : Result := .next (fire s (.elMinu a b x y t n) (fun _ => spanOne) (outScalar aluMinu))

/-- R172. -/
def execElMaxu (a b x y t n : BitVec 4) (s : State) : Result := .next (fire s (.elMaxu a b x y t n) (fun _ => spanOne) (outScalar aluMaxu))

/-- R172. -/
def execImul (a b x y t n : BitVec 4) (s : State) : Result := .next (fire s (.imul a b x y t n) (fun _ => spanMul) (outScalar aluMul))

/-- R172. -/
def execImulh (a b x y t n : BitVec 4) (s : State) : Result := .next (fire s (.imulh a b x y t n) (fun _ => spanMul) (outScalar aluMulh))

/-- R172. -/
def execElClz (a x y t n : BitVec 4) (s : State) : Result := .next (fire s (.elClz a x y t n) (fun _ => spanOne) (outUnary aluClz))

/-- R172. -/
def execElPopc (a x y t n : BitVec 4) (s : State) : Result := .next (fire s (.elPopc a x y t n) (fun _ => spanOne) (outUnary aluPopc))

/-- R172, R174. -/
def execIdiv (a b x y t n : BitVec 4) (s : State) : Result := .next (fire s (.idiv a b x y t n) (fun _ => spanDiv) outIdiv)

/-- R172, R174. -/
def execIrem (a b x y t n : BitVec 4) (s : State) : Result := .next (fire s (.irem a b x y t n) (fun _ => spanDiv) outIrem)

/-- R172. -/
def execCmp (a b x y t n : BitVec 4) (s : State) : Result := .next (fire s (.cmp a b x y t n) (fun _ => spanOne) outCmp)

/-- R172. -/
def execSel (a b x y t n : BitVec 4) (s : State) : Result := .next (fire s (.sel a b x y t n) (fun _ => spanOne) outSel)

/-- R172. -/
def execElBfx (a x y t n : BitVec 4) (s : State) : Result := .next (fire s (.elBfx a x y t n) (fun _ => spanOne) outBfx)

/-- R172. -/
def execElBfi (a b x y t n : BitVec 4) (s : State) : Result := .next (fire s (.elBfi a b x y t n) (fun _ => spanOne) outBfi)

/-- R172, R174. -/
def execAddsat (a b x y t n : BitVec 4) (s : State) : Result := .next (fire s (.addsat a b x y t n) (fun _ => spanOne) outAddsat)

/-- R172, R174. -/
def execAbs (a x y t n : BitVec 4) (s : State) : Result := .next (fire s (.abs a x y t n) (fun _ => spanOne) outAbs)

/-- R176. -/
def execAgen (a b x y n : BitVec 4) (s : State) : Result := .next (fire s (.agen a b x y n) (fun _ => spanOne) (outCounter2 agenItem))

/-- R177. -/
def execAinc (a b x y t n : BitVec 4) (s : State) : Result := .next (fire s (.ainc a b x y t n) (fun _ => spanOne) outAinc)

/-- R177. -/
def execAidx (a b x y t n : BitVec 4) (s : State) : Result := .next (fire s (.aidx a b x y t n) (fun _ => spanOne) outAidx)

end Sys2Proof.Machine
end

