-- ==== Sys2Proof/Machine/Port.lean ====
section
/-! DEFINITION. The memory port (R233 to R251, R295, R313, R415): what an entry accesses, its checks, its translation, its orders, its
access at the home, and its results. -/

namespace Sys2Proof.Machine

/-! Entries -/

def mFrame (m : MemEntry) : Nat := m.tag.frame.toNat

/-- R239: an entry whose generation is not its frame's. -/
def mStale (s : State) (e : Nat) (m : MemEntry) : Bool := s.genAt m.plid (mFrame m) (clusterOfElem e) != m.tag.gen

/-- R330: an entry's generation has been left behind, at its own cluster or at the home of its frame, which keeps the directory. -/
def mPast (s : State) (e : Nat) (m : MemEntry) : Bool :=
  mStale s e m || s.genAt m.plid (mFrame m) (s.frameOf m.plid (mFrame m)).home != m.tag.gen

/-- R170: an event operation sent to another cluster. -/
def mEvent (m : MemEntry) : Bool := mOpc m == 0x57 || mOpc m == 0x58

/-- R249. -/
def mFence (m : MemEntry) : Bool := mOpc m == 0x4A

def mLoad (m : MemEntry) : Bool := [0x43, 0x45, 0x4B, 0x4C].contains (mOpc m)
def mStore (m : MemEntry) : Bool := [0x44, 0x46, 0x52].contains (mOpc m)
def mAtomic (m : MemEntry) : Bool := [0x47, 0x48, 0x49, 0x53].contains (mOpc m)
/-- R220: the kind of access that an entry makes. -/
def mKind (m : MemEntry) : AccKind := if mStore m then .write else if mAtomic m then .atomic else .read

/-- R237, R295: the SEM of an entry. -/
def mSem (m : MemEntry) : Nat :=
  if mOpc m = 0x53 then 2 else if mRing m || mFence m || mEvent m || mOpc m == 0x4B then 0 else field m.attr 16 2

/-- R356: the SPEC of the firing that created an entry. -/
def mSpec0 (m : MemEntry) : Nat := if m.opA.tok.spec ≠ 0 then m.opA.tok.spec.toNat else m.opB.tok.spec.toNat

/-- R356: what the log entries of an entry's writes say of their writer. -/
def mWriter (e : Nat) (m : MemEntry) : Writer :=
  { p := m.plid, f := mFrame m, win := m.win, iter := m.tag.iter.toNat, elem := elemField e, cs := csField m.x m.k, spec := mSpec0 m }

/-! Footprints (R241, R245) -/

/-- R243: the alignment of a tile's elements. -/
def fmtAlign (f : Nat) : Nat := max 1 (fmtBits f / 8)

/-! Orders (R236 to R238) -/

/-- The space and place of a location: two locations overlap where their spaces are one. -/
def locKey : Loc → List Nat × Nat
  | .hbm a => ([0], a)
  | .commons c b => ([1, c], b)
  | .ring c b => ([1, c], b)
  | .pool p vp el b => ([2, p, vp, el], b)
  | .peer p a => ([3, p], a)
  | .host a => ([4], a)
  | .guest a => ([5], a)
  | .devreg o => ([6], o)

/-- Two ranges have a byte in common. -/
def rangesMeet (a n b k : Nat) : Bool := decide (a < b + k ∧ b < a + n)

/-- R236 item 2: two entries' footprints overlap: at their homes where both are translated, else at one placement's addresses. -/
def overlap (a b : MemEntry) : Bool :=
  if !a.lines.isEmpty && !b.lines.isEmpty then
    a.lines.any (fun l => b.lines.any (fun r =>
      (locKey l.loc).1 == (locKey r.loc).1 && rangesMeet (locKey l.loc).2 l.n (locKey r.loc).2 r.n))
  else a.plid == b.plid && (pieces a).any (fun l => (pieces b).any (fun r => rangesMeet l.1 l.2 r.1 r.2))

/-- R238, R170, R286: a coloured entry that is held. -/
def mHeld (m : MemEntry) : Bool :=
  m.tag.spec != 0 && (!mLoad m || mOpc m == 0x4C || m.lines.any (fun l => match l.loc with
    | .ring _ _ => true
    | .devreg _ => true
    | _ => false))

/-- The entries before an entry in entry order, those annihilated left out. -/
def entriesBefore (s : State) (e k : Nat) : List MemEntry :=
  ((s.elemOf e).port.takeWhile (fun m => m.id != k)).filter (fun m => !m.dead)

/-- R237: one context and one frame. -/
def sameFrame (a b : MemEntry) : Bool := a.x == b.x && a.plid == b.plid && a.tag.frame == b.tag.frame

def mPerformed (m : MemEntry) : Bool := m.st == .performed

/-- The entry has been sent. -/
def mSent (m : MemEntry) : Bool := m.st == .sent || m.st == .away || m.st == .performed

/-- R245, R244: the bytes that a store writes, row by row, with the mask bit of each. -/
def storeBytes (m : MemEntry) : List (Byte × Bool) :=
  if mOpc m = 0x46 then (leBytes (mSize m) m.opB.tok.payload.toNat).map (fun b => (b, true))
  else
    let bs := m.opB.tok.tile.getD []
    if m.mask.isEmpty then bs.map (fun b => (b, true))
    else
      let w := max 1 (fmtBits (dFMT m.opB.tok.payload) / 8)
      (List.zip bs (List.range bs.length)).map (fun p => (p.1, (m.mask.getD (p.2 / w / 8) 0).getLsbD (p.2 / w % 8)))

/-- The virtual address of each byte of an entry's footprint. -/
def byteVas (m : MemEntry) : List Nat := (footprint m).flatMap (fun r => (List.range r.2).map (fun i => (r.1 + i) % 2 ^ 58))

/-- The place of each byte of a translated entry's footprint. -/
def bytePlaces (m : MemEntry) : List (List Nat × Nat) :=
  m.lines.flatMap (fun l => (List.range l.n).map (fun i => ((locKey l.loc).1, (locKey l.loc).2 + i)))

/-- Byte `i` of entry `m` and byte `k` of entry `b` are one location: one address of one placement, or, where both are translated, one place. -/
def sameByte (m b : MemEntry) (i k : Nat) : Bool :=
  (b.plid == m.plid && (byteVas b)[k]? == (byteVas m)[i]?)
    || (!m.lines.isEmpty && !b.lines.isEmpty && (bytePlaces b)[k]? == (bytePlaces m)[i]? && ((bytePlaces b)[k]?).isSome)

/-- R238: what byte of a load is taken from: a held store's byte, memory, or nothing yet. -/
inductive ByteFrom where
  | forward (b : Byte)
  | memory
  | wait
  deriving DecidableEq, Repr

/-- R238: the source of byte `i` of load `m`, from the earlier entries, latest first. -/
def byteFrom (m : MemEntry) (i : Nat) : List MemEntry → ByteFrom
  | [] => .memory
  | b :: rest =>
    let hits := (List.range (byteVas b).length).filter (sameByte m b i)
    if m.hidden.contains b.id || !(mStore b || mAtomic b) || hits.isEmpty then byteFrom m i rest
    else if mHeld b && mStore b then
      match hits.reverse.findSome? (fun k => match (storeBytes b)[k]? with
        | some (v, true) => some v
        | _ => none) with
      | some v => .forward v
      | none => byteFrom m i rest
    else if mPerformed b then .memory
    else .wait

/-- R238: the source of every byte of a load. -/
def loadFrom (s : State) (e : Nat) (m : MemEntry) : List ByteFrom :=
  let n := (byteVas m).length
  let before := ((entriesBefore s e m.id).reverse).filter (fun b => (mStore b || mAtomic b) && overlap b m)
  if before.isEmpty then List.replicate n .memory else (List.range n).map (fun i => byteFrom m i before)

/-- R238: the bytes that a load takes from held stores, with their places in its data. -/
def forwarded (l : List ByteFrom) : List (Nat × Byte) :=
  (List.zip (List.range l.length) l).filterMap (fun p => match p.2 with
    | .forward b => some (p.1, b)
    | _ => none)

/-! The events of an access (R225, R245, R256) -/

/-- The lines of an entry with the offset of each in its data. -/
def linesAt : List Line → Nat → List (Nat × Line)
  | [], _ => []
  | l :: rest, o => (o, l) :: linesAt rest (o + l.n)

/-- A line whose home is another package. -/
def remoteLine (l : Line) : Bool :=
  match l.loc with
  | .peer _ _ => true
  | _ => false

/-- `n` bytes of a line from its byte `o` on. -/
def Line.part (l : Line) (o n : Nat) : Line := { l with va := l.va + o, n := n, loc := l.loc.back l.loc.inLine |>.fwd (l.loc.inLine + o) }

/-- R256: the events of an entry's access at its homes, each with the offset of its bytes: one for each element of a tile, and one for each line of any
other access; a line of another package is one request. The lines of a WBLD stand twice: read, and then landing in the weight buffer (R251). -/
def events (m : MemEntry) : List (Nat × Line) :=
  let w := if mOpc m = 0x43 then fmtAlign (field m.attr 60 4) else if mOpc m = 0x44 then fmtAlign (dFMT m.opB.tok.payload) else 128
  let ls := (linesAt m.lines 0).flatMap (fun p =>
    if remoteLine p.2 || p.2.n ≤ w then [p] else (List.range (p.2.n / w)).map (fun i => (p.1 + i * w, p.2.part (i * w) w)))
  if mOpc m = 0x4C then ls ++ ls else ls

/-! Pools (R229, R245, R251) -/

/-- R229, R245, R251: a write of a POOL byte may land: its virtual element is resident in a live context, no MMAW runs there where the byte lies in the
weight buffer, and no firing reads the standing slot in which it lies. -/
def poolLands (s : State) (l : Loc) : Bool :=
  match l with
  | .pool p vp el b =>
    match holderOf s p vp el with
    | some (e, x) =>
      let c := s.ctxOf e x
      let g := b / 4096
      c.st == .live && (if pMSG c.part + pTSG c.part + pACG c.part ≤ g then !c.inflight.any (fun f => f.opc == 0xA2)
        else !slotRead c (g - pMSG c.part))
    | none => false
  | _ => true

/-- R234, R240: the SCOPE of an entry is SYSTEM. -/
def system (m : MemEntry) : Bool := !mRing m && field m.attr 18 3 == 5

/-- R234, R237, R249: the earlier committed entries of an entry's context and frame have performed at its SCOPE: at SYSTEM, what the host and guest
ports have accepted of them has performed too. -/
def orderedBefore (s : State) (e : Nat) (m : MemEntry) : Bool :=
  let before := entriesBefore s e m.id
  let later (k : Nat) : Bool := (s.elemOf e).port.any (fun b => b.id == k) && !before.any (fun b => b.id == k)
  before.all (fun b => !sameFrame b m || b.tag.spec != 0 || mPerformed b)
    && (!system m || s.posted.all (fun w => match w.owner with
        | .entry d k => d != e || w.frame != some (m.x, m.plid, mFrame m) || later k
        | _ => true))

/-- R236 item 1, R237, R238, R239: an entry may be sent; a stale one never is. -/
def sendable (s : State) (e : Nat) (m : MemEntry) : Bool :=
  let before := entriesBefore s e m.id
  (m.st == .translated || (m.st == .created && mEvent m)) && !m.dead && !mStale s e m && !mHeld m
    && m.lines.all (fun l => poolThere s l.loc)
    && (mEvent m || before.all (fun b => mHeld b || mFence b || mEvent b || mSent b
        || streamOf b.opA.tok.payload != streamOf m.opA.tok.payload))
    && before.all (fun b => mHeld b || mPerformed b || !(sameFrame b m) || !(mSem b == 1 || mSem b == 3))
    && (!(mSem m == 2 || mSem m == 3) || orderedBefore s e m)
    && (!mLoad m || (loadFrom s e m).all (· != .wait))

/-- R236 item 2, R229: an entry that has been sent may perform. -/
def performable (s : State) (e : Nat) (m : MemEntry) : Bool :=
  m.st == .sent && !mEvent m && m.lines.all (fun l => poolThere s l.loc) && (mLoad m || m.lines.all (fun l => poolLands s l.loc))
    && (entriesBefore s e m.id).all (fun b => mHeld b || mPerformed b || mFence b || mEvent b || !overlap b m)

/-! Faults of an entry (R242) -/

/-- R324: the element's current window for a frame, 0 in log mode OFF. -/
def currentWin (s : State) (c : Ctx) (p f : Nat) : Nat := if (s.frameOf p f).log.mode = 0 then 0 else Tab.getD c.wins f 0

/-- A memory firing's fault: the entry is discarded, its operands stand in the MS again, and the fault is recorded; an entry whose generation has been left
behind, at its cluster or at the frame's home, has no fault (R330) and is dropped. -/
def entryFault (s : State) (e : Nat) (m : MemEntry) (code : Nat) (val : Word) : State :=
  let c := s.ctxOf e m.x
  let id := s.nextFault
  let fr := s.frameOf m.plid (mFrame m)
  let back (o : Operand) (isB : Bool) : List MsEntry :=
    if o.fromMs then [{ tok := o.tok, slot := o.slot, net := false, ord := o.ord, st := .fault id isB }] else []
  let s1 := { (s.dropEntry e m.id) with nextFault := id + 1 }
  let s2 := s1.updCtx e m.x (fun k => { k with ms := k.ms ++ back m.opA false ++ back m.opB true })
  let s3 := s2.updCluster fr.home (fun k => { k with dir := k.dir ++ [{
    id := id, fseq := none, vp := c.vp, el := c.el, k := m.k, plid := m.plid, frame := mFrame m, gen := m.tag.gen.toNat, tag := m.tag,
    bval := m.opB.tok.payload, settle := none }] })
  if mPast s e m then staleDrop (s.dropEntry e m.id) (clusterOfElem e) m.plid m.tag
  else touch (sendRecord s3 fr.home { recordZero with
    hdra := if m.opA.fromMs then m.opA.tok.header m.x else 0
    hdrb := if m.opB.fromMs then m.opB.tok.header m.x else 0
    paya := m.opA.tok.payload
    payb := m.opB.tok.payload
    fval := val
    elem := elemField e
    cs := csField m.x m.k
    opc := mOpc m
    code := code
    kind := 0
    win := currentWin s c m.plid (mFrame m)
    frm := frmField m.plid (mFrame m) m.tag.gen
    fault := some id }) (clusterOfElem e) m.plid (mFrame m) m.tag.gen

/-- R242 row 1, R417 row 1: an operand tile that the operator does not take. -/
def badTile (c : Ctx) (m : MemEntry) : Bool :=
  let d := m.opB.tok.payload
  let n := (m.opB.tok.tile.getD []).length
  match mOpc m with
  | 0x44 => (dMSLOT d != 0xFF && decide (c.standing ≤ dMSLOT d)) || (dFMT d == 5 && dMSLOT d != 0xFF)
  | 0x49 => field m.attr 10 2 == 3 && !(dFMT d == 0xB && dRows d == 1 && dCols d == 2)
  | 0x52 => !(dFMT d == 0xB && dRows d == 1 && decide (dCols d ≤ 32) && n == 2 ^ Nat.log2 n && dMSLOT d == 0xFF)
  | _ => false

/-- R242 row 2, R243, R417 row 2: a misaligned access. -/
def badAlign (m : MemEntry) : Bool :=
  let rstr (f : Nat) : Bool := m.va % fmtAlign f != 0 || mRstr m % (fmtAlign f : Int) != 0
  match mOpc m with
  | 0x43 => rstr (field m.attr 60 4)
  | 0x44 => rstr (dFMT m.opB.tok.payload)
  | 0x4B => false
  | 0x4C => m.va % 128 != 0
  | 0x52 => m.va % (m.opB.tok.tile.getD []).length != 0
  | 0x54 => false
  | 0x55 => false
  | _ => m.va % mSize m != 0

/-- R413, R415: the group that an MCST names, as it stood when the MCST was translated. -/
def mcGroup (s : State) (m : MemEntry) : Masked := m.grp.getD (groupOf s (field m.attr 24 12))
def gHome (g : Masked) : Nat := field g.w0 48 10
def gPidx (g : Masked) : Nat := field g.w0 32 8

/-- R415: the destinations of a multicast. -/
def mcDest (g : Masked) : List Nat := (List.range 512).filter (fun p => maskBit g.mask p || p == gHome g)

/-- R242 row 4, R417 rows 4 and 5, R437: the checks on a translated entry. -/
def targetCheck (s : State) (m : MemEntry) : Option (Nat × Word) :=
  let va := word m.va
  let dev := m.lines.any (fun l => match l.loc with
    | .devreg _ => true
    | _ => false)
  let host := m.lines.any (fun l => match l.loc with
    | .host _ => true
    | _ => false)
  if dev && !((mOpc m == 0x45 || mOpc m == 0x46) && decide (4 ≤ mSize m)) then some (cPERMISSION, va)
  else if host && mAtomic m && mOpc m != 0x53 && !hostAtomic (field m.attr 12 4) (mSize m) (mOpc m == 0x49) then some (cPERMISSION, va)
  else if mOpc m = 0x52 then
    let g := mcGroup s m
    let there := m.lines.all (fun l => match l.loc with
      | .peer p _ => p == gHome g
      | .hbm _ => ownPeer s == gHome g
      | _ => false)
    let key := (m.lines.map (·.key)).headD 0
    let part := partitionOf s (keyEntry s key).pidx
    if !there then some (cPERMISSION, va)
    else if !bit g.w0 63 || gPidx g != (keyEntry s key).pidx || !(mcDest g).all (fun p => maskBit part.mask p) then
      some (cPERMISSION, word (field m.attr 24 12))
    else none
  else none

/-! Translation (R225, R226, R236) -/

/-- R211, R417: an entry's access as translation sees it. -/
def mAccess (s : State) (e : Nat) (m : MemEntry) : Access :=
  { kind := mKind m, task := true, fromSeq := false, plid := some m.plid, walker := some (.entry e m.id)
    home := if mOpc m = 0x52 then some (gHome (mcGroup s m)) else none }

/-- The stream of an entry. -/
def mStream (m : MemEntry) : Nat := streamOf m.opA.tok.payload

/-- Every line of an entry translated. -/
def translateAll (s : State) (e : Nat) (m : MemEntry) (root : Word × Nat) : List (Nat × Except Nat (Line × Leaf)) :=
  (pieces m).map (fun p => (p.1, translateLine s (mAccess s e m) (vget (s.elemOf e).streams (mStream m) none) (clusterOfElem e) root p.1 p.2))

/-- R242 row 3: the lowest-addressed failing line: its code, and the address of the access's first byte in it. -/
def firstFailure (l : List (Nat × Except Nat (Line × Leaf))) : Option (Nat × Nat) :=
  leastBy (fun p => [p.2]) (l.filterMap (fun p => match p.2 with
    | .error c => some (c, p.1)
    | .ok _ => none))

/-- R250: PREF acts on lines of HBM alone, those of its own package's peer number among them; every other entry on all its lines. -/
def actsOn (m : MemEntry) (l : Line) : Bool := mOpc m != 0x4B || (hbmLine l.loc).isSome

/-- The result of translating an entry: it is translated, or it faults; without a root every line of it faults (R223). PREF leaves out the lines that fail, and those
that it skips (R250). -/
def finishTranslation (s : State) (e : Nat) (m : MemEntry) : State :=
  match rootOf s m.plid with
  | none =>
    if mOpc m = 0x4B then s.setEntry e { m with st := .translated, lines := [] }
    else entryFault s e m cTRANSLATION (word ((leastBy (fun va => [va]) ((pieces m).map (·.1))).getD m.va))
  | some root =>
    let rs := translateAll s e m root
    let oks := rs.filterMap (fun p => match p.2 with
      | .ok r => some r
      | .error _ => none)
    let s1 := oks.foldl (fun st r => keepLeaf st (clusterOfElem e) r.2) (walksPast s (.entry e m.id))
    let el := s1.elemOf e
    let s2 := match oks.getLast? with
      | some r => s1.setElem e { el with streams := vset el.streams (mStream m) (some r.2) }
      | none => s1
    match (if mOpc m = 0x4B then none else firstFailure rs) with
    | some (c, va) => entryFault s2 e m c (word va)
    | none =>
      let m1 := { m with st := .translated, lines := (oks.map (·.1)).filter (actsOn m), grp := if mOpc m = 0x52 then some (mcGroup s m) else none }
      match targetCheck s2 m1 with
      | some (c, v) => entryFault s2 e m c v
      | none => s2.setEntry e m1

/-- R242 rows 1 and 2. -/
def firstChecks (s : State) (e : Nat) (m : MemEntry) : Option (Nat × Word) :=
  if badTile (s.ctxOf e m.x) m then some (cTILESHAPE, m.opB.tok.payload)
  else if badAlign m then some (cALIGNMENT, word m.va)
  else none

/-- R226: the first line of an entry that has its leaf neither in the stream's entry or a TLB nor from a walk made for it. -/
def entryWalk (s : State) (e : Nat) (m : MemEntry) (root : Word × Nat) : Option Nat :=
  walkNeeded s (mAccess s e m) (vget (s.elemOf e).streams (mStream m) none) (clusterOfElem e) root (pieces m)

/-- No line of an entry needs a walk. -/
def allCached (s : State) (e : Nat) (m : MemEntry) (root : Word × Nat) : Bool := (entryWalk s e m root).isNone

/-- R225, R226: an entry is translated where no line of it needs a walk; else the next walk begins. -/
def translateOn (s : State) (e : Nat) (m : MemEntry) : State :=
  match (rootOf s m.plid).bind (fun r => (entryWalk s e m r).map (fun va => (r, va))) with
  | some (r, va) => askWalk (s.setEntry e { m with st := .walking }) (mAccess s e m) (clusterOfElem e) r va
  | none => finishTranslation s e m

/-- Entries that wait for translation, the first of its stream only; a stale one is dropped instead (R239). -/
def refillable (s : State) (e : Nat) (m : MemEntry) : Bool :=
  m.st == .created && !m.dead && !mStale s e m && !mFence m && !mEvent m
    && ((entriesBefore s e m.id).all (fun b => mStream b != mStream m || mFence b || mEvent b || !(b.st == .created || b.st == .walking)))
    && (match rootOf s m.plid with
      | some r => allCached s e m r || decide (walksIn s (clusterOfElem e) < 64) || (firstChecks s e m).isSome
      | none => true)

/-- R226: an entry is translated through cached leaves, or waits for a walk. -/
def execStreamRefill (s : State) : Result :=
  onUnit (okE s.arg.e) (match s.entry? s.arg.e s.arg.k with
    | none => s
    | some m =>
      if !refillable s s.arg.e m then s
      else
        match firstChecks s s.arg.e m with
        | some (c, v) => entryFault s s.arg.e m c v
        | none => translateOn s s.arg.e m)

/-- R220, R226, R255: with `ok`, walk number `n` reads its next table entry, which may end it with a leaf or a fault. Without, the walks that an entry waits for have
ended, and it goes on; an entry that is stale by then is dropped (R239). -/
def execTableWalkComplete (s : State) : Result :=
  onUnit (okE s.arg.e) (if s.arg.ok then walkStep s s.arg.n else match s.entry? s.arg.e s.arg.k with
    | none => s
    | some m =>
      if m.st != .walking then s
      else if m.dead then (walksPast s (.entry s.arg.e m.id)).dropEntry s.arg.e m.id
      else if mStale s s.arg.e m then staleDrop ((walksPast s (.entry s.arg.e m.id)).dropEntry s.arg.e m.id) (clusterOfElem s.arg.e) m.plid m.tag
      else translateOn s s.arg.e m)

/-! Sending (R236, R398, R415) -/

/-- R398: the packet of one remote line. -/
def sendLine (s : State) (e : Nat) (m : MemEntry) (o : Nat) (l : Line) : State :=
  match l.loc with
  | .peer p a =>
    if mLoad m then (if mOpc m = 0x4B then s else remoteRead s (.entry e m.id) p a l.key o l.n)
    else if mAtomic m then
      if mOpc m = 0x49 then
        (if field m.attr 10 2 = 2 then
          remoteAtomic s (.entry e m.id) p a l.key 4 aopCas (word (field m.opB.tok.payload 0 32)) (word (field m.opB.tok.payload 32 32))
        else
          remoteAtomic s (.entry e m.id) p a l.key 8 aopCas (wordAt (m.opB.tok.tile.getD []) 0) (wordAt (m.opB.tok.tile.getD []) 1))
      else if mOpc m = 0x53 then
        remoteAtomic s (.entry e m.id) p a l.key 8 (if field m.attr 0 2 = 1 then 0 else 1)
          (if field m.attr 0 2 = 3 then 0 - m.opB.tok.payload else m.opB.tok.payload) 0
      else remoteAtomic s (.entry e m.id) p a l.key (mSize m) (field m.attr 12 4) m.opB.tok.payload 0
    else
      let bs := ((storeBytes m).drop o).take l.n
      (runsOf bs 0).foldl (fun st r => remoteWrite st (.entry e m.id) p (a + r.1) l.key (o + r.1) r.2) s
  | _ => s
where
  /-- The runs of bytes whose mask bit is 1, each with its offset. -/
  runsOf : List (Byte × Bool) → Nat → List (Nat × List Byte)
    | [], _ => []
    | (b, true) :: rest, o =>
      match runsOf rest (o + 1) with
      | (k, bs) :: more => if k = o + 1 then (o, b :: bs) :: more else (o, [b]) :: (k, bs) :: more
      | [] => [(o, [b])]
    | (_, false) :: rest, o => runsOf rest (o + 1)

/-- R412: the address of an MCST in each package. -/
def mcAddr (m : MemEntry) : Nat :=
  match m.lines.head? with
  | some l => match l.loc with
      | .peer _ b => b
      | .hbm b => b
      | _ => 0
  | none => 0

/-- R415: the multicast packets of an MCST, one for each port that serves a destination. -/
def sendMulticast (s : State) (e : Nat) (m : MemEntry) : State :=
  let g := mcGroup s m
  let own := ownPeer s
  let dest := (mcDest g).filter (· != own)
  let ok := dest.filter (peerReachable s)
  let s0 := s.setEntry e { m with acks := m.acks ++ (dest.filter (fun p => !peerReachable s p)).map (fun p => (p, 3)) }
  let a := mcAddr m
  let bs := m.opB.tok.tile.getD []
  (List.range 24).foldl (fun st n =>
    let ps := ok.filter (fun p => nextPort s p == n)
    if ps.isEmpty then st
    else
      let rid := st.nextRid
      let st1 := { st with
        nextRid := rid + 1
        remotes := st.remotes ++ ps.map (fun p => { rid := rid, owner := .entry e m.id, port := n, peer := p, off := 0, n := 0, mc := true }) }
      portSend st1 n { kpktZero with
        dst := gHome g, src := own, vc := 2, type := kMCWRITE, ndata := 1 + (bs.length + 63) / 64, rid := rid,
        addr := gHome g * 2 ^ 46 + a, key := (m.lines.map (·.key)).headD 0, group := field m.attr 24 12,
        lg2 := Nat.log2 bs.length, tag := packetTag st1 ((m.lines.map (·.key)).headD 0) (gHome g * 2 ^ 46 + a) bs, mask := ps, data := bs }) s0

/-- R236: an entry is sent; a load takes then what held stores forward to it (R238). The events of a multicast are its packets (0) and its copy at its own package (1).
An entry that had been returned to its stream (R229) goes on with the events that have not performed. -/
def execMemoryEntrySend (s : State) : Result :=
  onUnit (okE s.arg.e) (match s.entry? s.arg.e s.arg.k with
    | none => s
    | some m =>
      let e := s.arg.e
      if !sendable s e m then s
      else if !m.todo.isEmpty then s.setEntry e { m with st := .sent }
      else
        s.setEntry e { m with
          st := .sent, data := List.replicate ((m.lines.map (·.n)).sum) 0, todo := List.range (if mOpc m = 0x52 then 2 else (events m).length)
          fwd := if mLoad m then forwarded (loadFrom s e m) else [] })

/-! At the home (R231, R244 to R251, R295, R313) -/

/-- R335: POISON tokens that a cluster creates. (DEDUCED, unsafe: log 40.) -/
def countPoison (s : State) (c n : Nat) : State := s.updCluster c (fun k => { k with poisoncnt := k.poisoncnt + word n })

/-- R408, R450: an ENGINE record of a memory-port entry. -/
def entryRecord (s : State) (e : Nat) (m : MemEntry) (va : Nat) : State :=
  let fr := s.frameOf m.plid (mFrame m)
  sendRecord s fr.home { recordZero with
    hdra := if m.opA.fromMs then m.opA.tok.header m.x else 0, paya := m.opA.tok.payload, fval := word va, elem := elemField e,
    cs := csField m.x m.k, opc := mOpc m, code := cINTEGRITY, kind := 5, win := currentWin s (s.ctxOf e m.x) m.plid (mFrame m),
    frm := frmField m.plid (mFrame m) m.tag.gen }

/-- R233: a line that a load reads is kept as a copy in its cluster's commons. -/
def keepCopy (s : State) (e : Nat) (m : MemEntry) (l : Loc) : State :=
  match l with
  | .hbm a =>
    if mLoad m && !(mOpc m != 0x4B && bit m.attr 8) then
      s.updCluster (clusterOfElem e) (fun k => if k.copies.contains (a / 128) then k else { k with copies := (a / 128) :: k.copies })
    else s
  | _ => s

/-- The bytes of one event of a load, read at its home; none where they cannot be corrected. -/
def loadLine (s : State) (l : Line) : Option (List Byte) :=
  match l.loc with
  | .devreg o => (devRead s o l.n).map (leBytes l.n)
  | loc => readLoc s l.key loc l.n

/-- The line of an entry that its address lies in. -/
def vaLine (l : Line) : Nat := l.va / 128

/-- R256: event `j` of an entry has performed. -/
def MemEntry.done (m : MemEntry) (j : Nat) : MemEntry := { m with todo := m.todo.filter (· != j) }

/-- Free bytes: 128 of a line that the weight buffer takes and that cannot be corrected. (DESIGN CHOICE, safe: log 37.) -/
def freeLine (s : State) : List Byte := (List.range 16).flatMap (fun i => leBytes 8 (Config.freeWord (s.free + i)).toNat)

/-- R244, R245, R251, R408: event `j` of a load performs at its home in the package: its bytes are read; bytes that cannot be corrected make its result
POISON, count, and for an HBM line are reported once. (DEDUCED, unsafe: log 39.) -/
def performLoad (s : State) (e : Nat) (m : MemEntry) (j o : Nat) (l : Line) : State :=
  let own := (List.range l.n).filter (fun i => !m.fwd.any (fun f => f.1 == o + i))
  if own.isEmpty then s.setEntry e (m.done j)
  else
    match loadLine s l with
    | some bs => (keepCopy (drainPort s l.loc) e m l.loc).setEntry e { m.done j with data := spliceBytes m.data o bs }
    | none =>
      let again := (Tab.get? m.taken (vaLine l)).isSome
      let s1 := if again then s else countBad s l.loc
      let s2 := match again, l.loc with
        | false, .hbm _ => entryRecord s1 e m l.va
        | _, _ => s1
      let m1 := { m.done j with taken := Tab.set m.taken (vaLine l) true, poison := max 1 m.poison }
      if mOpc m = 0x4C then { s2 with free := s2.free + 16 }.setEntry e { m1 with data := spliceBytes m.data o (freeLine s2) }
      else s2.setEntry e m1

/-- A held append of an entry. -/
def mHolds (e : Nat) (m : MemEntry) (h : Holder) : Bool := h.kind == 0 && h.loc == e && h.num == m.id

/-- R251, R352, R358: a line of a WBLD that has been read lands in the weight buffer, logged first under the address of the line that was read; not while an MMAW of
the context runs. (DEDUCED, unsafe: log 140.) -/
def landWeights (s : State) (e : Nat) (m : MemEntry) (j : Nat) : State :=
  let c := s.ctxOf e m.x
  let i := j - m.lines.length
  let off := (pMSG c.part + pTSG c.part + pACG c.part) * 4096 + field m.attr 48 12 * 128 + 128 * i
  let bs := (m.data.drop (128 * i)).take 128
  let va := ((m.lines[i]?).map (·.va)).getD m.va
  let loc := Loc.pool m.plid c.vp c.el off
  if m.todo.contains i || awaits i || c.inflight.any (fun f => f.opc == 0xA2) || lineHeldBut s (mHolds e m) loc then s
  else
    match logLine s (mWriter e m) { kind := 0, loc := e, num := m.id, va := va }
        { va := va, n := 128, loc := loc, key := 0, irrev := false, nolog := false, lvl := 0 } false false with
    | (s1, false) => s1
    | (s1, true) =>
      (s1.updCtx e m.x (fun k => { k with pool := memWrite k.pool off bs, poolErr := coverErr k.poolErr 8 off 128 })).setEntry e (m.done j)
where
  /-- The answer that brings line `i` from another package is awaited. -/
  awaits (i : Nat) : Bool := s.remotes.any (fun r => r.owner == .entry e m.id && decide (128 * i ≤ r.off ∧ r.off < 128 * i + 128))

/-- The events of an entry in one line of its address space, by number. -/
def lineEvents (m : MemEntry) (line : Nat) : List (Nat × Nat × Line) :=
  (List.zip (List.range (events m).length) (events m)).filter (fun p => vaLine p.2.2 == line)

/-- The bytes that an event of a store writes: those whose mask bit is 1, each with its place in its line. -/
def eventBytes (m : MemEntry) (o : Nat) (l : Line) : List (Nat × Byte) :=
  (List.zip (List.range l.n) (((storeBytes m).drop o).take l.n)).filterMap (fun p =>
    if p.2.2 then some (l.loc.inLine + p.1, p.2.1) else none)

/-- R351, R356: what one entry of the log covers of a line: from the first to the last byte of the footprint there. -/
def lineSpan (evs : List (Nat × Nat × Line)) (l : Line) : Line :=
  let lo := (evs.map (fun p => p.2.2.loc.inLine)).foldl min l.loc.inLine
  let hi := (evs.map (fun p => p.2.2.loc.inLine + p.2.2.n)).foldl max (l.loc.inLine + l.n)
  { l with va := l.va - (l.loc.inLine - lo), n := hi - lo, loc := (l.loc.back l.loc.inLine).fwd lo }

/-- R365: the bytes of a span of a line that a write at some of its offsets leaves alone. -/
def spanGaps (l : Line) (offs : List Nat) : List Nat := (List.range l.n).filter (fun i => !offs.contains (l.loc.inLine + i))

/-- R245: an earlier row of an entry still has bytes to land where event `j` writes. -/
def rowPending (s : State) (e : Nat) (m : MemEntry) (j : Nat) (l : Line) : Bool :=
  (lineEvents m (vaLine l)).any (fun p => decide (p.1 < j) && rangesMeet p.2.2.va p.2.2.n l.va l.n
    && (m.todo.contains p.1 || s.remotes.any (fun r => r.owner == .entry e m.id && decide (p.2.1 ≤ r.off ∧ r.off < p.2.1 + p.2.2.n))))

/-- The units of a line that a write touches hold an error, or the line does not pass its check: a write that covers them performs as a whole. -/
def lineStale (s : State) (key : Nat) (l : Loc) (offs : List Nat) : Bool :=
  match l with
  | .hbm a => !hbmOk s key a 128
  | .commons c b | .ring c b => offs.any (fun o => (s.clusterOf c).comErr.contains ((b + o) / 8))
  | .pool p vp el b =>
    match holderOf s p vp el with
    | some (e, x) => offs.any (fun o => (s.ctxOf e x).poolErr.contains ((b + o) / 8))
    | none => false
  | _ => false

/-- R244, R245, R256, R358, R398, R450: event `j` of a store performs at its home in the package, is accepted by the host or guest port, or leaves for another package.
The first event of a line is judged for the whole of it: a write that its home refuses is reported and writes nothing; else its entry is appended. A logged line, and one
that holds an error, then performs as a whole; of any other line the elements perform one by one; the rows of an STT land in order where they overlap. (DEDUCED, unsafe: log 38.) -/
def performStore (s : State) (e : Nat) (m : MemEntry) (j o : Nat) (l : Line) : State :=
  let evs0 : List (Nat × Nat × Line) := lineEvents m (vaLine l)
  let open' : List (Nat × Nat × Line) := evs0.filter (fun p => m.todo.contains p.1)
  let base := l.loc.back l.loc.inLine
  let offs := evs0.flatMap (fun p => (eventBytes m p.2.1 p.2.2).map (·.1))
  let post (st : State) (p : Nat × Nat × Line) : State :=
    postStore st (.entry e m.id) (some (m.x, m.plid, mFrame m)) (system m) p.2.2.loc ((eventBytes m p.2.1 p.2.2).map (·.2))
  let write (st : State) (m1 : MemEntry) (evs : List (Nat × Nat × Line)) : State :=
    let st1 : State := match l.loc with
      | .devreg r => devWrite st r l.n (leNat ((eventBytes m o l).map (·.2)))
      | .host _ => evs.foldl post st
      | .guest _ => evs.foldl post st
      | .peer _ _ => evs.foldl (fun u p => sendLine u e m p.2.1 p.2.2) st
      | _ => putLine st l.key base offs (evs.flatMap (fun p => eventBytes m p.2.1 p.2.2))
    st1.setEntry e { m1 with todo := m1.todo.filter (fun i => !evs.any (fun p => p.1 == i)) }
  if rowPending s e m j l then s
  else
    match Tab.get? m.taken (vaLine l) with
    | some _ => write s m [(j, o, l)]
    | none =>
      let span := lineSpan evs0 l
      if lineRefuses s l.key base offs then
        (entryRecord s e m span.va).setEntry e { m with
          taken := Tab.set m.taken (vaLine l) true, poison := 2, todo := m.todo.filter (fun i => !evs0.any (fun p => p.1 == i)) }
      else
        match logLine s (mWriter e m) { kind := 0, loc := e, num := m.id, va := span.va } span false false (spanGaps span offs) with
        | (s1, false) => s1
        | (s1, true) =>
          let logged := (s.frameOf m.plid (mFrame m)).log.mode != 0 && !l.nolog
          let whole := !remoteLine l && (logged || lineStale s l.key base offs)
          write s1 { m with taken := Tab.set m.taken (vaLine l) false } (if whole then open' else [(j, o, l)])

/-- R246 to R248, R295: the new value of an atomic, none for a failed comparison. -/
def atomicValue (m : MemEntry) (old : Nat) : Option Nat :=
  let b := m.opB.tok.payload
  let n := 8 * mSize m
  match mOpc m with
  | 0x49 =>
    if field m.attr 10 2 = 2 then (if old = field b 0 32 then some (field b 32 32) else none)
    else if old = (wordAt (m.opB.tok.tile.getD []) 0).toNat then some (wordAt (m.opB.tok.tile.getD []) 1).toNat else none
  | 0x53 =>
    match field m.attr 0 2 with
    | 1 => some b.toNat
    | 2 => some (atomicNew 1 64 old b.toNat)
    | _ => some (atomicNew 1 64 old (0 - b).toNat)
  | _ => some (atomicNew (field m.attr 12 4) n old b.toNat)

/-- R246, R242, R450: an atomic performs at its home; at the host or the guest, what its port has accepted performs first (R234). -/
def performAtomic (s0 : State) (e : Nat) (m : MemEntry) : State :=
  match m.lines.head? with
  | none => s0
  | some l =>
    let s := if (outPort l.loc).isSome then drainPort s0 l.loc else s0
    let bad (st : State) : State := (entryRecord st e m l.va).setEntry e { m with todo := [], poison := 2 }
    match readLoc s l.key l.loc l.n with
    | none => bad (countBad s l.loc)
    | some bs =>
      match logLine s (mWriter e m) { kind := 0, loc := e, num := m.id, va := l.va } l true false with
      | (s1, false) => s1
      | (s1, true) =>
        let old := leNat bs
        let done (st : State) : State :=
          let st1 := if mOpc m = 0x53 && bit m.attr 2 then { st with notices := st.notices ++ [field m.attr 3 11] } else st
          st1.setEntry e { m with todo := [], out0 := word old }
        match atomicValue m old with
        | none => done s1
        | some v =>
          match writeLoc s1 l.key l.loc (leBytes l.n v) with
          | some s2 => done s2
          | none => bad s1

/-! Rings (R309 to R313) -/

/-- R309: a 64-bit word of a ring's control block: 0 PIDX, 1 KIDX, 2 CIDX, 3 CFG, 4 to 9 the counters. -/
def ringWord (s : State) (r : Ring) (n : Nat) : Nat := leNat (memRead (s.clusterOf r.cl).com (r.ctl + 8 * n) 8)

/-- Write a word of a ring's control block. -/
def ringSetWord (s : State) (r : Ring) (n v : Nat) : State :=
  s.updCluster r.cl (fun k => { k with com := memWrite k.com (r.ctl + 8 * n) (leBytes 8 v) })

/-- R310: the size of a record of `len` payload bytes. -/
def recordSize (len : Nat) : Nat := (32 + len + 63) / 64 * 64

/-- R310: KIND, LEN, SEQ and size of the record at byte index `i` of a ring. -/
def recordAt (s : State) (r : Ring) (i : Nat) : Nat × Nat × Nat × Nat :=
  let sz := 2 ^ r.lg
  let o := r.ctl + 128 + i % sz
  let h := memRead (s.clusterOf r.cl).com o 16
  let len := leNat ((h.drop 8).take 2)
  let kind := leNat ((h.drop 10).take 1)
  (kind, len, leNat (h.take 8), if kind = 1 then sz - i % sz else recordSize len)

/-- R313: a byte index past every PAD from `i`. -/
def skipPads (s : State) (r : Ring) (p : Nat) : Nat → Nat → Nat
  | 0, i => i
  | fuel + 1, i =>
    if i < p then
      (let q := recordAt s r i
       if q.1 = 1 then skipPads s r p fuel (i + q.2.2.2) else i)
    else i

/-- R313: the end of the `n`th PACKET record from byte index `i` on, before `k`. -/
def nthPacket (s : State) (r : Ring) (k : Nat) : Nat → Nat → Nat → Option Nat
  | 0, _, _ => none
  | fuel + 1, n, i =>
    if n = 0 then some i
    else if k ≤ i then none
    else
      let q := recordAt s r i
      nthPacket s r k fuel (if q.1 = 0 then n - 1 else n) (i + q.2.2.2)

/-- R313: a byte index past every PAD and DROPPED record before `k`. -/
def skipDead (s : State) (r : Ring) (k : Nat) : Nat → Nat → Nat
  | 0, i => i
  | fuel + 1, i =>
    if i < k then
      (let q := recordAt s r i
       if q.1 = 0 then i else skipDead s r k fuel (i + q.2.2.2))
    else i

/-- R313: the bound ring whose control block an entry's address names. -/
def ringOf (s : State) (m : MemEntry) : Option Ring :=
  match m.lines.head? with
  | some l =>
    match l.loc with
    | .ring c b => (s.rings.find? (fun r => r.2.cl == c && r.2.ctl == b)).map (·.2)
    | _ => none
  | none => none

/-- Enough steps to pass every record of a ring. -/
def ringFuel (r : Ring) : Nat := 2 ^ r.lg / 64 + 1

/-- The headers that `skipPads` reads, by byte index. -/
def padHeaders (s : State) (r : Ring) (p : Nat) : Nat → Nat → List Nat
  | 0, _ => []
  | fuel + 1, i =>
    if i < p then
      (let q := recordAt s r i
       i :: (if q.1 = 1 then padHeaders s r p fuel (i + q.2.2.2) else []))
    else []

/-- The headers that `nthPacket` reads. -/
def packetHeaders (s : State) (r : Ring) (k : Nat) : Nat → Nat → Nat → List Nat
  | 0, _, _ => []
  | fuel + 1, n, i =>
    if n = 0 || decide (k ≤ i) then []
    else
      let q := recordAt s r i
      i :: packetHeaders s r k fuel (if q.1 = 0 then n - 1 else n) (i + q.2.2.2)

/-- The headers that `skipDead` reads. -/
def deadHeaders (s : State) (r : Ring) (k : Nat) : Nat → Nat → List Nat
  | 0, _ => []
  | fuel + 1, i =>
    if i < k then
      (let q := recordAt s r i
       i :: (if q.1 = 0 then [] else deadHeaders s r k fuel (i + q.2.2.2)))
    else []

/-- R450: the header of the record at byte index `i` of a ring holds an error. -/
def headerBad (s : State) (r : Ring) (i : Nat) : Bool := touchesBad (s.clusterOf r.cl).comErr 8 (r.ctl + 128 + i % 2 ^ r.lg) 16

/-- R313, R335: the words of a ring's control block, or a header that the operator reads, hold an error. -/
def ringBad (s : State) (r : Ring) (m : MemEntry) : Bool :=
  let p := ringWord s r 0
  let k := ringWord s r 1
  let c := ringWord s r 2
  let n := m.opB.tok.payload.toNat
  touchesBad (s.clusterOf r.cl).comErr 8 r.ctl 24
    || (if mOpc m = 0x54 then padHeaders s r p (ringFuel r) k
        else packetHeaders s r k (ringFuel r) n c ++ ((nthPacket s r k (ringFuel r) n c).map (deadHeaders s r k (ringFuel r))).getD []).any (headerBad s r)

/-- R313, R335: RINGPOP and RINGREL at the ring's home; over data that cannot be corrected they write nothing, and every result is POISON. (DEDUCED, unsafe: log 41.) (DESIGN CHOICE, unsafe: log 137.) -/
def performRing (s : State) (e : Nat) (m : MemEntry) : State :=
  match ringOf s m with
  | none => entryFault s e m cBOUNDS (word m.va)
  | some r =>
    if ringBad s r m then (countBad s (.commons r.cl r.ctl)).setEntry e { m with todo := [], poison := 2 }
    else
      let p := ringWord s r 0
      let k := ringWord s r 1
      let c := ringWord s r 2
      let a := m.opA.tok.payload
      let n := m.opB.tok.payload
      let rel := if mOpc m = 0x55 then nthPacket s r k (ringFuel r) n.toNat c else some c
      match rel with
      | none => entryFault s e m cBOUNDS n
      | some c1 =>
        match logLines s (mWriter e m) 0 e m.id false (m.lines.take 1 |>.map (fun l => { l with n := 128, irrev := true })) with
        | (s1, false) => s1
        | (s1, true) =>
          if mOpc m = 0x55 then
            (ringSetWord s1 r 2 (skipDead s1 r k (ringFuel r) c1)).setEntry e { m with todo := [], out0 := a, out1 := a }
          else
            let i := skipPads s1 r p (ringFuel r) k
            if i = p then
              (ringSetWord s1 r 1 i).setEntry e { m with todo := [], out0 := a, out1 := word (at' 1 63) }
            else
              let q := recordAt s1 r i
              (ringSetWord s1 r 1 (i + q.2.2.2)).setEntry e { m with
                todo := []
                out0 := addressWord (streamOf a) (vaOf a + 128 + (i % 2 ^ r.lg : Nat) + 32)
                out1 := word (at' q.2.1 32 + q.2.2.1 % 2 ^ 32) }

/-- R415, R450: the copy of a multicast at its own package, where that is a destination. -/
def performMulticast (s : State) (e : Nat) (m : MemEntry) : State :=
  let g := mcGroup s m
  let now := groupOf s (field m.attr 24 12)
  let own := ownPeer s
  let key := (m.lines.map (·.key)).headD 0
  let a := mcAddr m
  let bs := m.opB.tok.tile.getD []
  let acked (c : Nat) : MemEntry := { m.done 1 with acks := m.acks ++ [(own, c)] }
  if !(mcDest g).contains own then s.setEntry e (m.done 1)
  else if !bit now.w0 63 || gHome now != gHome g || !(keyEntry s key).v || (keyEntry s key).pidx != gPidx now then s.setEntry e (acked 2)
  else
    match copyIn s a bs.length with
    | some line => recallLine s line
    | none =>
      let whole := splitLines (bs.length + 1) a bs.length
      if whole.any (fun c => lineHeldBut s (mHolds e m) (.hbm c.1)) then s
      else if whole.all (fun c => hbmPresent s c.1 && (writeHbm s key c.1 ((bs.drop (c.1 - a)).take c.2)).isSome) then
        (writeHbmLines (bs.length + 1) s key a bs).setEntry e (acked 1)
      else if gHome g = own then (entryRecord s e m m.va).setEntry e { acked 2 with poison := 2 }
      else s.setEntry e (acked 2)

/-- R414, R353, R415: an event of a multicast: its packets leave, once it has been logged as one entry, or its own package's copy is made. -/
def multicastEvent (s : State) (e : Nat) (m : MemEntry) (j : Nat) : State :=
  if !m.todo.contains j then s
  else if j = 0 then
    match logLines s (mWriter e m) 0 e m.id true (m.lines.take 1 |>.map (fun l => { l with irrev := true })) with
    | (s1, true) => sendMulticast s1 e (m.done 0)
    | (s1, false) => s1
  else if m.todo.contains 0 then s
  else performMulticast s e m

/-- R353, R398: the request of an atomic for a line of another package leaves, logged first. -/
def requestAtomic (s : State) (e : Nat) (m : MemEntry) (j o : Nat) (l : Line) : State :=
  match logLine s (mWriter e m) { kind := 0, loc := e, num := m.id, va := l.va } l true false with
  | (s1, true) => sendLine (s1.setEntry e (m.done j)) e m o l
  | (s1, false) => s1

/-- R234: store `k` that a port has accepted performs, every store that the port accepted before it having performed. -/
def performAccepted (s : State) (k : Nat) : State :=
  match s.posted.find? (fun w => w.id == k) with
  | none => s
  | some w =>
    if s.posted.find? (fun v => outPort v.loc == outPort w.loc) == some w then
      postedPerforms { s with posted := s.posted.filter (fun v => v.id != k) } w
    else s

/-- One event of an entry at its home. -/
def entryEvent (s : State) (e : Nat) (m : MemEntry) (j o : Nat) (l : Line) : State :=
  if mOpc m = 0x4C ∧ m.lines.length ≤ j then landWeights s e m j
  else if mRing m then performRing s e m
  else if mStore m then performStore s e m j o l
  else if remoteLine l then (if mLoad m then sendLine (s.setEntry e (m.done j)) e m o l else requestAtomic s e m j o l)
  else if mLoad m then performLoad s e m j o l
  else performAtomic s e m

/-- R231, R256: event `n` of an entry's access performs at its home, or, with `ok`, a store that the host or guest port has accepted performs in the memory
behind it (R234). A line of which the guest holds a copy is recalled first (R427), and a line that a held write has taken lets nothing else perform (R358). (DEDUCED, unsafe: log 35.) -/
def execHomeAccessPerform (s : State) : Result :=
  onUnit (okE s.arg.e) (if s.arg.ok then performAccepted s s.arg.k else match s.entry? s.arg.e s.arg.k with
    | none => s
    | some m =>
      let e := s.arg.e
      let j := s.arg.n
      if !performable s e m then s
      else if mOpc m = 0x52 then settleEntry (multicastEvent s e m j) e m.id
      else
        match (events m)[j]? with
        | none => s
        | some (o, l) =>
          if !m.todo.contains j || lineHeldBut s (mHolds e m) l.loc then s
          else
            match (if mLoad m then none else guestCopy s l.loc) with
            | some line => recallLine s line
            | none => settleEntry (entryEvent s e m j o l) e m.id)

/-! Results (R241, R244 to R251, R415, R416) -/

/-- R416: the completion payload of a multicast. -/
def mcCompletion (acks : List (Nat × Nat)) : Word :=
  let n (c : Nat) : Nat := acks.countP (fun a => a.2 == c)
  let first := ((List.range 512).find? (fun p => acks.any (fun a => a.1 == p && a.2 != 1))).getD 0x3FF
  word (at' (n 1) 48 + at' (n 2) 32 + at' (n 3) 16 + first)

/-- R416: the status tile of a multicast, 16 words. -/
def mcStatus (acks : List (Nat × Nat)) : List Byte :=
  (List.range 16).flatMap (fun w => leBytes 8 ((acks.filter (fun a => a.1 / 32 == w)).map (fun a => at' a.2 (2 * (a.1 % 32)))).sum)

/-- A firing's view of an entry, for the tag action of its slot. -/
def entryFire (s : State) (e : Nat) (m : MemEntry) : Fire :=
  { e := e, x := m.x, k := m.k, el := s.elemOf e, c := s.ctxOf e m.x, w := m.wrd, a := m.opA, b := m.opB, scales := [],
    tag := { m.tag with btag := if m.opA.fromMs then m.opA.tok.btag else 0 }, cfg := m.attr, sw := 0 }

/-- A result of an entry, POISON where the entry says so. -/
def entryTok (m : MemEntry) (dataResult : Bool) (t : Tok) : Tok :=
  if m.poison = 2 ∨ (m.poison = 1 ∧ dataResult) then { t with kind := .poison, tile := none, slotRef := none } else t

/-- R238: the bytes of a load: those that held stores forwarded over those read. -/
def loadedBytes (m : MemEntry) : List Byte := m.fwd.foldl (fun bs f => setAt bs f.1 f.2) m.data

/-- R241: the results of an entry that has performed. -/
def entryResults (s : State) (e : Nat) (m : MemEntry) : List Emit :=
  let F := entryFire s e m
  let comp := entryTok m false (F.tok .data m.opA.tok.payload)
  let free := Config.freeWord s.free
  let value (v : Word) : Tok := entryTok m true (F.tok .data (if m.poison = 0 then v else free))
  match mOpc m with
  | 0x43 =>
    F.put F.d0 (entryTok m true { F.tok .tile (ldtDesc m.attr) with tile := some (loadedBytes m), slotRef := m.res }) ++ F.put F.d1 comp
  | 0x45 => F.put F.d0 (value (extend (mSize m) (bit m.attr 9) (leNat (loadedBytes m)))) ++ F.put F.d1 comp
  | 0x48 => F.put F.d0 (value m.out0) ++ F.put F.d1 comp
  | 0x49 => F.put F.d0 (value m.out0) ++ F.put F.d1 comp
  | 0x4A => F.both (entryTok m false (F.tok .data 0))
  | 0x52 =>
    F.put F.d0 (entryTok m false (F.tok .data (mcCompletion m.acks)))
      ++ F.put F.d1 (entryTok m false { F.tok .tile (word (at' 0xB 60 + at' 15 48 + at' 0xFF 32)) with
          tile := some (mcStatus m.acks), slotRef := m.res })
  | 0x54 => F.put F.d0 (value m.out0) ++ F.put F.d1 (value m.out1)
  | 0x57 => F.both (F.pass m.opA)
  | 0x58 => F.both (F.pass m.opA)
  | _ => F.both comp

/-- R163 item 1, R164: a token enters a route's FIFO; a KILL or COMMIT acts on the tokens already there. A token that a KILL annihilates leaves the custody
that counts it (R144). -/
def enterFifo (s : State) (e x r : Nat) (t : Tok) : State :=
  let c := s.ctxOf e x
  let q := vget c.fifo r []
  let iw := ccwIW c.ccw
  let inSet (u : Tok) : Bool := u.spec != 0 && bit t.payload (u.spec.toNat - 1) && u.frame == t.frame && u.gen == t.gen
    && u.kind != .kill && u.kind != .commit
  let hit (u : Tok) : Bool := t.kind == .kill && inSet u && outer iw u.iter == outer iw t.iter
  let q1 := if t.kind == .kill then q.filter (fun u => !hit u)
    else if t.kind == .commit then q.map (fun u => if inSet u && u.iter == t.iter then { u with spec := 0 } else u)
    else q
  let cl := clusterOfElem e
  let s1 := touch (s.setCtx e x { c with fifo := vset c.fifo r (q1 ++ [t]) }) cl c.plid t.frame.toNat t.gen
  (q.filter hit).foldl (fun st u => left st cl c.plid (countedFor u).1 (countedFor u).2) s1

/-- Results enter their FIFOs, stale ones being dropped (R74), and a SELF result its slot-state word. -/
def emitAll (s : State) (e x k : Nat) (rs : List Emit) : State :=
  rs.foldl (fun st r =>
    if r.dest = 14 then st.updCtx e x (fun c => { c with sw := vset c.sw k r.tok.payload })
    else
      let c := st.ctxOf e x
      if st.genAt c.plid r.tok.frame.toNat (clusterOfElem e) != r.tok.gen then staleDrop st (clusterOfElem e) c.plid r.tok
      else enterFifo st e x r.dest r.tok) s

/-- The routes that results name have free positions. -/
def roomFor (c : Ctx) (rs : List Emit) : Bool :=
  rs.all (fun r => decide (14 ≤ r.dest) || decide (fifoUsed c r.dest + rs.countP (fun t => t.dest == r.dest) ≤ 4))

/-- An entry that may give its results. -/
def answerable (s : State) (e : Nat) (m : MemEntry) : Bool :=
  (if mFence m then
      m.tag.spec == 0 && orderedBefore s e m
    else m.st == .performed && !awaited s e m.id)
    && (m.dead || mStale s e m || roomFor (s.ctxOf e m.x) (entryResults s e m))

/-- R241: an entry emits its results and leaves the port; those of an annihilated or stale entry are discarded (R239). -/
def execMemoryEntryAnswer (s : State) : Result :=
  onUnit (okE s.arg.e) (match s.entry? s.arg.e s.arg.k with
    | none => s
    | some m =>
      let e := s.arg.e
      if !answerable s e m then s
      else
        let cl := clusterOfElem e
        let s1 := s.dropEntry e m.id
        if m.dead then touch s1 cl m.plid (mFrame m) m.tag.gen
        else if mStale s e m then staleDrop s1 cl m.plid m.tag
        else
          let rs := entryResults s e m
          let n := rs.countP (fun r => r.tok.kind == .poison)
          left (countPoison (emitAll (if n = 0 then s1 else s1.draw) e m.x m.k rs) cl (if m.poison = 0 then 0 else n))
            cl m.plid (mFrame m) m.tag.gen)

/-- R229: an access that finds its virtual element gone is returned to its stream. -/
def execPoolAccessReturn (s : State) : Result :=
  onUnit (okE s.arg.e) (match s.entry? s.arg.e s.arg.k with
    | none => s
    | some m => if m.st == .sent && !m.lines.all (fun l => poolThere s l.loc) then s.setEntry s.arg.e { m with st := .translated } else s)

/-! Event operations from another cluster (R170) -/

/-- R170: an event operation lands at its event cluster. -/
def execRemoteEventOp (s : State) : Result :=
  onUnit (okE s.arg.e) (match s.entry? s.arg.e s.arg.k with
    | none => s
    | some m =>
      if m.st == .sent && mOpc m == 0x57 then
        (eventOp s (s.ctxOf s.arg.e m.x).evcl (field m.attr 8 2) (field m.attr 0 8)).setEntry s.arg.e { m with st := .performed }
      else s)

/-- R170, R168: a test that waits at an event cluster is met there. -/
def remoteMet (s : State) (e : Nat) (m : MemEntry) : Bool :=
  let b := eventBit s (s.ctxOf e m.x).evcl (field m.attr 0 8)
  m.st == .sent && mOpc m == 0x58 && !m.dead && (if bit m.attr 8 then b else b == !bit m.out0 0)

/-- R170: the event cluster answers a test that is met, clearing the bit where CLR = 1. -/
def execRemoteEvwaitMet (s : State) : Result :=
  onUnit (okE s.arg.e) (match s.entry? s.arg.e s.arg.k with
    | none => s
    | some m =>
      if remoteMet s s.arg.e m then
        let s1 := if bit m.attr 8 then eventOp s (s.ctxOf s.arg.e m.x).evcl 1 (field m.attr 0 8) else s
        s1.setEntry s.arg.e { m with st := .performed }
      else s)

end Sys2Proof.Machine
end

