-- ==== Sys2Proof/Machine/Cut.lean ====
section
/-! DEFINITION. The staging of a cut in a context (R360 to R363): its incoming channels, the arrival of markers, the checkpoint, and the forwarding of
markers. -/

namespace Sys2Proof.Machine

/-! Virtual elements and entry ports -/

/-- The number of the virtual element that a context carries. -/
def Ctx.velem (c : Ctx) : Nat := 4 * c.vp + c.el

/-- R117: the virtual element and the input port of an entry word. -/
def entVelem (w : Word) : Nat := 4 * field w 10 12 + field w 8 2
def entPORT (w : Word) : Nat := field w 4 4

/-- Where the virtual element of an entry stands now: element and context slot; none while it is saved. -/
def holderOfVelem (s : State) (p ve : Nat) : Option (Nat × Nat) := holderOf s p (ve / 4) (ve % 4)

/-- R75, R87, R229, R341: a virtual plot that is neither moving, nor being saved, nor saved. -/
def plotOpen (pl : Placement) (vp : Nat) : Bool :=
  (pl.map.getD vp none).isSome && pl.moving != some vp && !pl.saving.any (fun v => v.1 == vp)

/-! Channels (R361) -/

/-- R361: the incoming channels of a virtual element for a frame. -/
def channels (s : State) (p f ve : Nat) : List Nat :=
  match s.placeOf p with
  | none => []
  | some pl =>
    let routes := (pl.edges.filter (fun d => d.tgt == 0 && d.dst == ve)).map (fun d => chanRoute d.src d.r)
    let entries := ((List.range pl.entries.length).filter (fun n => entVelem (pl.entries.getD n 0) == ve)).map chanEntry
    let rings := (s.rings.filter (fun r => r.2.plid == p && r.2.frame == f && entVelem (pl.entries.getD r.2.entry 0) == ve)).map
      (fun r => chanRing r.1)
    if (routes ++ entries ++ rings).isEmpty then [chanDirect] else routes ++ entries ++ rings

/-- The staging of a frame's cut in a context. -/
def stagingOf (c : Ctx) (f w : Nat) : Option Staging := c.stagings.find? (fun z => z.frame == f && z.w == w)

/-- Change a staging. -/
def updStaging (c : Ctx) (f w : Nat) (g : Staging → Staging) : Ctx :=
  { c with stagings := c.stagings.map (fun z => if z.frame = f ∧ z.w = w then g z else z) }

/-- R363: the checkpoint of a context as its WINDOW_OPEN entry holds it. -/
def checkpointBytes (c : Ctx) (x : Nat) (z : Staging) : List Byte :=
  let tiles := z.entries.filter (fun m => m.1.tok.tile.isSome)
  let ents := List.zip (List.range z.entries.length) z.entries
  let tileNo (i : Nat) : Nat :=
    if (z.entries[i]?).any (fun m => m.1.tok.tile.isSome) then (z.entries.take i).countP (fun m => m.1.tok.tile.isSome) else 2 ^ 64 - 1
  leBytes 8 (c.plid + at' c.vp 14 + at' c.el 26) ++ leBytes 8 (z.entries.length + at' tiles.length 32 + at' (z.accs.length / 4096) 48)
    ++ bytesOfWords z.sw ++ z.accs
    ++ ents.flatMap (fun n => leBytes 8 (n.2.1.tok.header x).toNat ++ leBytes 8 n.2.1.tok.payload.toNat
        ++ leBytes 8 (at' n.2.2 62 + n.1) ++ leBytes 8 (tileNo n.1))
    ++ tiles.flatMap (fun m => (m.1.tok.tile.getD []).take 4096 ++ List.replicate (4096 - (m.1.tok.tile.getD []).length) 0)

/-- R81, R363: the place of a context's staging granules in its pool. -/
def stagingOff (c : Ctx) : Nat := (pMSG c.part + pTSG c.part + pACG c.part + pWBG c.part) * 4096

/-- R363, R342: the staging granules hold the oldest checkpoint that has not been appended, as far as they reach. -/
def putStaging (c : Ctx) (x : Nat) : Ctx :=
  match c.stagings.find? (fun z => !z.sw.isEmpty) with
  | some z => { c with pool := memWrite c.pool (stagingOff c) ((checkpointBytes c x z).take (pSPG c.part * 4096)) }
  | none => c

/-- R362: a token that arrives on a channel whose marker has not arrived is copied into the checkpoint. -/
def channelToken (s : State) (e x chan : Nat) (net : Bool) (t : Tok) : State :=
  let c := s.ctxOf e x
  if c.stagings.any (fun z => z.frame == t.frame.toNat && !z.done && !z.marks.contains chan) then
    s.setCtx e x (putStaging { c with stagings := c.stagings.map (fun z =>
      if z.frame = t.frame.toNat ∧ !z.done ∧ !z.marks.contains chan then
        { z with entries := z.entries ++
            [({ tok := { t with slotRef := none, cust := none }, slot := none, net := net, ord := 0, st := .idle }, 2)] }
      else z) } x)
  else s

/-- R362: the checkpoint is complete once the marker has arrived on every channel; the markers are then consumed. -/
def completeStaging (s : State) (e x f w : Nat) : State :=
  let c := s.ctxOf e x
  match stagingOf c f w with
  | none => s
  | some z =>
    if !z.done && (channels s c.plid f c.velem).all (fun h => z.marks.contains h) then
      left (s.setCtx e x (updStaging c f w (fun y => { y with done := true }))) (clusterOfElem e) c.plid f (s.frameOf c.plid f).gen
    else s

/-- R360, R362: a marker reaches a context on a channel: counted by its staging, waiting for one, or consumed where its cut is over. -/
def markArrives (s : State) (e x f w chan : Nat) : State :=
  let c := s.ctxOf e x
  match stagingOf c f w with
  | some z =>
    if z.done || z.marks.contains chan then s
    else completeStaging (s.setCtx e x (updStaging c f w (fun y => { y with marks := chan :: y.marks }))) e x f w
  | none =>
    if (s.frameOf c.plid f).log.cut == some (w - 1) && !((s.frameOf c.plid f).log.drained.contains c.velem) then
      s.setCtx e x { c with marksIn := c.marksIn ++ [(f, w, chan)] }
    else s

/-! Staging (R361) -/

/-- R361: no coloured entry or command of the frame, no entry bound for SELF, no firing in progress. -/
def mayStage (s : State) (e x f : Nat) : Bool :=
  let c := s.ctxOf e x
  let port := (s.elemOf e).port.filter (fun m => m.x == x && !m.dead)
  c.inflight.isEmpty
    && !port.any (fun m => mFrame m == f && m.tag.spec != 0)
    && !port.any (fun m => wD0 m.wrd == 14 || wD1 m.wrd == 14)
    && !s.clusters.any (fun v => v.2.ce.any (fun k => k.plid == c.plid && k.sender == some (c.vp, c.el) && k.tag.frame.toNat == f
          && k.spec != 0))
    && !(List.range 14).any (fun r => rtTGT (vget c.routes r 0) == 1
          && (vget c.fifo r []).any (fun t => t.frame.toNat == f && t.spec != 0))

/-- Entries of a matching store in arrival order. -/
def byOrd : List MsEntry → List MsEntry
  | [] => []
  | m :: l => insert m (byOrd l)
where
  insert (m : MsEntry) : List MsEntry → List MsEntry
    | [] => [m]
    | a :: l => if m.ord ≤ a.ord then m :: a :: l else a :: insert m l

/-- R81: the accumulators of a context. -/
def accBytes (c : Ctx) : List Byte := memRead c.pool ((pMSG c.part + pTSG c.part) * 4096) (pACG c.part * 4096)

/-- R361, R364: staging at a firing boundary: the slot-state words, the accumulators and the frame's tokens, restored ones that still wait at the context
among them, and the new window. -/
def stageNow (s : State) (e x f w : Nat) : State :=
  let c := s.ctxOf e x
  let ms := (byOrd (c.ms.filter (fun m => m.tok.frame.toNat == f && m.tok.gen == (s.frameOf c.plid f).gen))).map (fun m => (m, 0))
  let sp := (s.spills.filter (fun t => t.plid == c.plid && t.vp == c.vp && t.el == c.el && t.tok.frame.toNat == f
      && t.tok.gen == (s.frameOf c.plid f).gen)).map
    (fun t => (({ tok := t.tok, slot := none, net := t.net, ord := 0, st := .idle } : MsEntry), 1))
  let late := (c.waitIn.filter (fun t => t.2.frame.toNat == f && t.2.gen == (s.frameOf c.plid f).gen)).map
    (fun t => (({ tok := t.2, slot := none, net := t.1, ord := 0, st := .idle } : MsEntry), 1))
  let z : Staging := {
    frame := f, w := w, done := false
    marks := (c.marksIn.filter (fun m => m.1 == f && m.2.1 == w)).map (fun m => m.2.2)
    fwd := (List.range 14).filter (fun r => rtV (vget c.routes r 0) && rtTGT (vget c.routes r 0) == 0)
    sw := c.sw.toList, accs := accBytes c, entries := ms ++ sp ++ late }
  touch (s.setCtx e x (putStaging { c with
    stagings := c.stagings ++ [z]
    marksIn := c.marksIn.filter (fun m => !(m.1 == f && m.2.1 == w))
    wins := Tab.set c.wins f w } x)) (clusterOfElem e) c.plid f (s.frameOf c.plid f).gen

/-- A MARK token of a frame's window (R360). -/
def markTok (s : State) (p f w : Nat) : Tok :=
  { tokZero with gen := (s.frameOf p f).gen, frame := BitVec.ofNat 10 f, kind := .mark, payload := word w }

/-- R361: a result of an entry or command created before the staging that is still to come on a route. -/
def earlierResult (s : State) (e x f w r : Nat) : Bool :=
  let c := s.ctxOf e x
  (s.elemOf e).port.any (fun m => m.x == x && !m.dead && mFrame m == f && decide (m.win < w) && (wD0 m.wrd == r || wD1 m.wrd == r))
    || (s.clusters.any (fun k => k.2.ce.any (fun y => y.plid == c.plid && y.sender == some (c.vp, c.el) && y.tag.frame.toNat == f
          && decide (y.win < w) && field (y.words.getD 4 0) 0 4 == r)))
    || s.guest.tags.any (fun t => t.2.plid == c.plid && t.2.vp == c.vp && t.2.el == c.el && t.2.tag.frame.toNat == f
          && decide (t.2.win < w) && t.2.ret == r)
    || (List.range 14).any (fun q => rtTGT (vget c.routes q 0) == 1 && (vget c.fifo q []).any (fun t => t.frame.toNat == f
          && (match t.cmd with
              | some m => decide (m.win < w)
              | none => false)
          && (if rtEPN (vget c.routes q 0) = 0 then field (wordAt (t.tile.getD []) 4) 0 4 == r
              else field (wordAt (t.tile.getD []) 0) 44 4 == r)))

/-- R361: the marker can enter a route's FIFO. -/
def mayForward (s : State) (e x f w r : Nat) : Bool :=
  decide (fifoUsed (s.ctxOf e x) r < 4) && !earlierResult s e x f w r

/-- R361: the marker enters the FIFO of every route that can take it. -/
def forwardMarks (s : State) (e x f w : Nat) : State :=
  match stagingOf (s.ctxOf e x) f w with
  | none => s
  | some z => z.fwd.foldl (fun st r =>
      if mayForward st e x f w r then
        let c := st.ctxOf e x
        let c1 := updStaging c f w (fun y => { y with fwd := y.fwd.filter (· != r) })
        touch (st.setCtx e x { c1 with fifo := vset c1.fifo r (vget c1.fifo r [] ++ [markTok st c.plid f w]) })
          (clusterOfElem e) c.plid f (st.frameOf c.plid f).gen
      else st) s

/-! Markers at the heads of routes -/

/-- The head of a route's FIFO. -/
def fifoHead (s : State) (e x r : Nat) : Option Tok := (vget (s.ctxOf e x).fifo r []).head?

/-- The head of a FIFO is taken away. -/
def popFifo (s : State) (e x r : Nat) : State :=
  s.updCtx e x (fun c => { c with fifo := vset c.fifo r (vget c.fifo r []).tail })

/-- The routes, as (element, context slot, route), that lead to a context of a placement. -/
def routesInto (s : State) (p vp el : Nat) : List (Nat × Nat × Nat) :=
  match s.placeOf p with
  | none => []
  | some pl => (pl.edges.filter (fun d => d.tgt == 0 && d.dst == 4 * vp + el)).filterMap (fun d =>
      (holderOfVelem s p d.src).map (fun h => (h.1, h.2, d.r)))

/-- R361: a marker of a frame's window `w` stands at a context: injected, or at the head of a route into it. -/
def markerWaits (s : State) (e x f w : Nat) : Bool :=
  let c := s.ctxOf e x
  c.marksIn.any (fun m => m.1 == f && m.2.1 == w)
    || (routesInto s c.plid c.vp c.el).any (fun r => match fifoHead s r.1 r.2.1 r.2.2 with
        | some t => t.kind == .mark && t.frame.toNat == f && t.payload == word w && t.gen == (s.frameOf c.plid f).gen
        | none => false)

/-- The window that a frame's cut in progress opens. -/
def cutOpens (s : State) (p f : Nat) : Option Nat := (s.frameOf p f).log.cut.map (· + 1)

/-- A context can stage a frame's cut now. -/
def stageable (s : State) (e x f : Nat) : Bool :=
  let c := s.ctxOf e x
  match cutOpens s c.plid f with
  | none => false
  | some w => c.st == .live && (stagingOf c f w).isNone && !(s.frameOf c.plid f).log.drained.contains c.velem && markerWaits s e x f w
      && mayStage s e x f

/-- A context has a marker that it can forward now. -/
def forwardable (s : State) (e x f : Nat) : Bool :=
  (s.ctxOf e x).stagings.any (fun z => z.frame == f && z.fwd.any (fun r => mayForward s e x f z.w r))

/-- R361 CUT_STAGING: a context stages for a cut, and forwards its marker on the routes that can take it. -/
def execCutStaging (s : State) : Result :=
  onUnit (okX s.arg.e s.arg.x) (
    let e := s.arg.e
    let x := s.arg.x
    let f := s.arg.f
    match cutOpens s (s.ctxOf e x).plid f with
    | none => s
    | some w =>
      let s1 := if stageable s e x f then stageNow s e x f w else s
      completeStaging (forwardMarks s1 e x f w) e x f w)

/-- R75: the virtual plot that a route leads to can receive. -/
def targetOpen (s : State) (c : Ctx) (r : Nat) : Bool :=
  match s.placeOf c.plid with
  | none => true
  | some pl =>
    match pl.edges.find? (fun d => d.src == c.velem && d.r == r) with
    | none => true
    | some d => plotOpen pl (d.dst / 4)

/-- R66, R70, R71, R72, R75, R364: a route of a context that its receiver does not hold back for a token. -/
def routeOpen (s : State) (e x r : Nat) (t : Tok) : Bool :=
  let c := s.ctxOf e x
  let rt := vget c.routes r 0
  let h := s.ctxOf (rtElem rt) (rtCTX rt)
  rtV rt && rtTGT rt == 0 && targetOpen s c r && !(h.st == .filling && h.plid == c.plid)
    && (e == rtElem rt || !(h.st == .live && (h.throttled || hasSpill s h)))
    && h.waitIn.isEmpty
    && !(t.cust.isSome && (s.clusterOf (clusterOfElem (rtElem rt))).marked.contains (c.plid, t.frame.toNat, t.gen.toNat))

/-- A token of a generation that is not its frame's in the table of cluster `cl`. -/
def staleTok (s : State) (cl p : Nat) (t : Tok) : Bool := s.genAt p t.frame.toNat cl != t.gen

/-- R361, R362 MARK_TOKEN_ACCEPT: the marker at the head of a route that its receiver does not hold back is counted by the receiver's staging, or consumed
where its cut is over; a stale marker is dropped. -/
def markTakes (s : State) (e x r : Nat) : Bool :=
  match fifoHead s e x r with
  | none => false
  | some t =>
    let c := s.ctxOf e x
    let rt := vget c.routes r 0
    let h := s.ctxOf (rtElem rt) (rtCTX rt)
    let f := t.frame.toNat
    t.kind == .mark && routeOpen s e x r t && (staleTok s (clusterOfElem (rtElem rt)) c.plid t || h.st != .live || (stagingOf h f (t.payload.toNat)).isSome
      || cutOpens s c.plid f != some t.payload.toNat || (s.frameOf c.plid f).log.drained.contains h.velem)

/-- R361, R362. -/
def execMarkTokenAccept (s : State) : Result :=
  onUnit (okX s.arg.e s.arg.x) (
    let e := s.arg.e
    let x := s.arg.x
    let r := s.arg.r
    match fifoHead s e x r with
    | none => s
    | some t =>
      if !markTakes s e x r then s
      else
        let c := s.ctxOf e x
        let rt := vget c.routes r 0
        let f := t.frame.toNat
        let s1 := popFifo s e x r
        if staleTok s (clusterOfElem (rtElem rt)) c.plid t then
          left (staleDrop s1 (clusterOfElem (rtElem rt)) c.plid t) (clusterOfElem e) c.plid f t.gen
        else
          let s2 := markArrives s1 (rtElem rt) (rtCTX rt) f t.payload.toNat (chanRoute c.velem r)
          left (touch s2 (clusterOfElem (rtElem rt)) c.plid f t.gen) (clusterOfElem e) c.plid f t.gen)

end Sys2Proof.Machine
end

