-- ==== Sys2Proof/Machine/MemOps.lean ====
section
/-! DEFINITION. The memory operators of the element (R241 to R251), the copy and signal operators (R288, R289, R294), the ring operators
(R313), MCST (R414) and GQP (R423, R424), as firings: a memory operator takes an entry of its element's memory port. -/

namespace Sys2Proof.Machine

/-! Memory operators -/

/-- R235, R241: a firing of a memory operator creates an entry at A's address. -/
def outEntry (F : Fire) : FireOut := .emit [] none [.entry (F.entry (vaOf F.a.tok.payload) none)]

/-- R245: LDT keeps a free tile slot for its result. -/
def outLdt (F : Fire) : FireOut :=
  .emit [] none [.entry (F.entry (vaOf F.a.tok.payload) (freeSlots F.el F.x F.c).head?)]

/-- R416: MCST keeps a free tile slot for its status tile where D1 is routed. -/
def outMcst (F : Fire) : FireOut :=
  .emit [] none [.entry (F.entry (vaOf F.a.tok.payload) (if F.d1 < 14 then (freeSlots F.el F.x F.c).head? else none))]

/-- R249: FENCE has no address. -/
def outFence (F : Fire) : FireOut := .emit [] none [.entry (F.entry 0 none)]

/-- R235, R288: a memory operator's firing lasts 2 cycles and holds its unit for 1. -/
def spanPort : Span := ⟨2, 1⟩

/-! Commands for an edge port -/

/-- R287, R422: a tile of 1 by 8 UINT64. -/
def commandTile (d : Word) : Bool := dFMT d == 0xB && dRows d == 1 && dCols d == 8

/-- R289, R424: a return route that cannot take a completion: 14, or a route that is absent, leads to an edge port or to the scale network. -/
def badReturn (F : Fire) (ret : Nat) : Bool :=
  ret == 14 || (decide (ret < 14) &&
    (let r := vget F.c.routes ret 0
     !rtV r || rtTGT r != 0 || rtNET r))

/-- R287, R289: word `n` of a copy command breaks a rule of its fields. -/
def badCopyWord (F : Fire) (withSignal : Bool) (bs : List Byte) (n : Nat) : Bool :=
  let w := wordAt bs n
  match n with
  | 0 => field w 58 6 != 0
  | 1 => field w 58 6 != 0
  | 2 => field w 20 28 != 0
  | 4 => field w 7 57 != 0 || decide (5 < field w 4 3) || badReturn F (field w 0 4)
  | 5 => field w 48 16 != 0
  | 6 => if withSignal then field w 58 4 != 0 || field w 62 2 == 0 else w != 0
  | 7 => !withSignal && w != 0
  | _ => false

/-- R288: the command leaves on D0's route with the operands' tag after the tag action; it names its firing (R356, R359). -/
def sendCommand (F : Fire) : FireOut :=
  .emit (F.put F.d0 { F.pass F.a with cmd := some {
    win := Tab.getD F.c.wins F.tag.frame.toNat 0, elem := elemField F.e, cs := csField F.x F.k, iter := F.tag.iter.toNat
    spec := F.tag.spec.toNat } }) none []

/-- R288, R289 CPY and CPYW. -/
def outCpy (withSignal : Bool) (F : Fire) : FireOut :=
  let d := F.a.tok.payload
  let bs := F.a.tok.tile.getD []
  if !commandTile d then .fault cTILESHAPE d
  else
    match (List.range 8).find? (badCopyWord F withSignal bs) with
    | some n => .fault cRESERVED (word n)
    | none =>
      let sva := field (wordAt bs 6) 0 58
      if withSignal && sva % 8 != 0 then .fault cALIGNMENT (word sva) else sendCommand F

/-- R422, R424: word `n` of a guest packet breaks a rule of its fields. (DEDUCED, unsafe: log 100.) -/
def badGuestWord (F : Fire) (bs : List Byte) (n : Nat) : Bool :=
  let w0 := wordAt bs 0
  let gop := field w0 56 8
  let fqc := field w0 32 10
  if n = 0 then
    field w0 42 2 != 0 || field w0 0 32 != 0 || badReturn F (field w0 44 4) || decide (1 ≤ gop ∧ gop ≤ 5) || decide (7 ≤ gop ∧ gop ≤ 0x7F)
      || (fqc != 0x3FF && (decide (5 < fqc / 128) || decide (95 < fqc % 128)))
  else if gop = 0 then wordAt bs n != 0
  else if gop = 6 then (if n = 1 then decide (1 < (wordAt bs 1).toNat) else wordAt bs n != 0)
  else false

/-- R423, R424 GQP. -/
def outGqp (s : State) (F : Fire) : FireOut :=
  let d := F.a.tok.payload
  let bs := F.a.tok.tile.getD []
  let cid := field (wordAt bs 0) 48 8
  let g := guestCtxOf s cid
  if !commandTile d then .fault cTILESHAPE d
  else
    match (List.range 8).find? (badGuestWord F bs) with
    | some n => .fault cRESERVED (word n)
    | none =>
      if !g.v || g.plid != F.c.plid then .fault cPERMISSION (word cid)
      else if s.guest.st != .active then .fault cGUEST (gpst s.guest)
      else sendCommand F

/-- R245. -/
def execLdt (a b x y t n : BitVec 4) (s : State) : Result := .next (fire s (.ldt a b x y t n) (fun _ => spanPort) outLdt)

/-- R245. -/
def execStt (a b x y t n : BitVec 4) (s : State) : Result := .next (fire s (.stt a b x y t n) (fun _ => spanPort) outEntry)

/-- R244. -/
def execLds (a b x y t n : BitVec 4) (s : State) : Result := .next (fire s (.lds a b x y t n) (fun _ => spanPort) outEntry)

/-- R244. -/
def execSts (a b x y t n : BitVec 4) (s : State) : Result := .next (fire s (.sts a b x y t n) (fun _ => spanPort) outEntry)

/-- R246. -/
def execAtom (a b x y t n : BitVec 4) (s : State) : Result := .next (fire s (.atom a b x y t n) (fun _ => spanPort) outEntry)

/-- R246. -/
def execAtomr (a b x y t n : BitVec 4) (s : State) : Result := .next (fire s (.atomr a b x y t n) (fun _ => spanPort) outEntry)

/-- R248. -/
def execCasr (a b x y t n : BitVec 4) (s : State) : Result := .next (fire s (.casr a b x y t n) (fun _ => spanPort) outEntry)

/-- R249. -/
def execElFence (a b x y t n : BitVec 4) (s : State) : Result := .next (fire s (.elFence a b x y t n) (fun _ => spanPort) outFence)

/-- R250. -/
def execPref (a b x y t n : BitVec 4) (s : State) : Result := .next (fire s (.pref a b x y t n) (fun _ => spanPort) outEntry)

/-- R251. -/
def execWbld (a b x y t n : BitVec 4) (s : State) : Result := .next (fire s (.wbld a b x y t n) (fun _ => spanPort) outEntry)

/-- R288, R289. -/
def execCpy (a b x t n : BitVec 4) (s : State) : Result := .next (fire s (.cpy a b x t n) (fun _ => spanPort) (outCpy false))

/-- R288, R289. -/
def execCpyw (a b x t n : BitVec 4) (s : State) : Result := .next (fire s (.cpyw a b x t n) (fun _ => spanPort) (outCpy true))

/-- R414. -/
def execMcst (a b x y t n : BitVec 4) (s : State) : Result := .next (fire s (.mcst a b x y t n) (fun _ => spanPort) outMcst)

/-- R294, R295. -/
def execSigop (a b x y t n : BitVec 4) (s : State) : Result := .next (fire s (.sigop a b x y t n) (fun _ => spanPort) outEntry)

/-- R313. -/
def execRingpop (a b x y t n : BitVec 4) (s : State) : Result := .next (fire s (.ringpop a b x y t n) (fun _ => spanPort) outEntry)

/-- R313. -/
def execRingrel (a b x y t n : BitVec 4) (s : State) : Result := .next (fire s (.ringrel a b x y t n) (fun _ => spanPort) outEntry)

/-- R423, R424. -/
def execGqp (a b x t n : BitVec 4) (s : State) : Result := .next (fire s (.gqp a b x t n) (fun _ => spanPort) (outGqp s))

end Sys2Proof.Machine
end

