-- ==== Sys2Proof/Machine/Complete.lean ====
section
/-! DEFINITION. The completion of a firing (R67, R111, R147, R149), the acceptance of tokens by their receivers (R66, R70 to R75, R163 to R165), the return of
spilled tokens, the sweep of stale ones, and the settlements of faulted firings (R329). -/

namespace Sys2Proof.Machine

/-! Completion -/

/-- R147, R324, R327: a firing faults: its operands stay in the matching store, and its record goes to the frame's home cluster. One whose generation has been
left behind meanwhile, at the element's cluster or at the home, has no fault (R330): its operands are dropped as stale tokens. -/
def firingFault (s : State) (e x : Nat) (fl : Firing) (code : Nat) (val : Word) : State :=
  let c := s.ctxOf e x
  let f := fl.tag.frame.toNat
  let id := s.nextFault
  let fr := s.frameOf c.plid f
  let ms := c.ms.map (fun m =>
    if fl.used.contains m.ord then { m with st := .fault id !(fl.opA.fromMs && m.ord == fl.opA.ord) } else m)
  if staleTok s (clusterOfElem e) c.plid fl.tag || staleTok s fr.home c.plid fl.tag then
    let gone := c.ms.filter (fun m => fl.used.contains m.ord)
    gone.foldl (fun st m => staleDrop st (clusterOfElem e) c.plid m.tok)
      (s.setCtx e x { c with ms := c.ms.filter (fun m => !fl.used.contains m.ord) })
  else
  let s1 := { s with nextFault := id + 1 }.setCtx e x { c with ms := ms }
  let s2 := s1.updCluster fr.home (fun k => { k with dir := k.dir ++ [{
    id := id, fseq := none, vp := c.vp, el := c.el, k := fl.k, plid := c.plid, frame := f, gen := fl.tag.gen.toNat, tag := fl.tag,
    bval := fl.opB.tok.payload, settle := none }] })
  touch (sendRecord s2 fr.home { recordZero with
    hdra := if fl.opA.fromMs then fl.opA.tok.header x else 0
    hdrb := if fl.opB.fromMs then fl.opB.tok.header x else 0
    paya := fl.opA.tok.payload
    payb := fl.opB.tok.payload
    fval := val
    elem := elemField e
    cs := csField x fl.k
    opc := fl.opc
    code := code
    kind := 0
    win := currentWin s c c.plid f
    frm := frmField c.plid f fl.tag.gen
    fault := some id }) (clusterOfElem e) c.plid f fl.tag.gen

/-- R238: the earlier coloured entries that a new entry cannot see. -/
def hiddenFrom (el : Elem) (m : MemEntry) : List Nat :=
  (el.port.filter (fun b => b.tag.spec != 0 && b.tag.spec != m.tag.spec)).map (·.id)

/-- R235: a new entry stands last in entry order. -/
def addEntry (s : State) (e : Nat) (m : MemEntry) : State :=
  let el := s.elemOf e
  s.setElem e { el with port := el.port ++ [{ m with id := el.nextId, hidden := hiddenFrom el m }], nextId := el.nextId + 1 }

/-- The effects of a firing that land as it completes. -/
def landPosts (s : State) (e x : Nat) (posts : List Post) : State :=
  posts.foldl (fun st p =>
    match p with
    | .pool off bs => st.updCtx e x (fun c => { c with pool := memWrite c.pool off bs, poolErr := coverErr c.poolErr 8 off bs.length })
    | .event op k => eventOp st (st.ctxOf e x).evcl op k
    | .entry m => addEntry st e m) s

/-- R157: the operands leave, but for the start token of a counter whose run goes on. -/
def operandsLeave (ms : List MsEntry) (fl : Firing) (running : Bool) : List MsEntry :=
  (ms.filter (fun m => !fl.used.contains m.ord || (running && m.ord == fl.opA.ord))).map (fun m =>
    if fl.used.contains m.ord then { m with st := .start fl.k } else m)

/-- R67, R111, R149: a firing completes. -/
def completeFiring (s : State) (e x : Nat) (fl : Firing) : State :=
  let c := s.ctxOf e x
  let s0 := s.setCtx e x { c with inflight := eraseFirst (· == fl) c.inflight }
  let f := fl.tag.frame.toNat
  let finish (st : State) : State := throttle (left st (clusterOfElem e) c.plid f fl.tag.gen) e x
  match fl.out with
  | .fault code val =>
    if fl.cancel then finish (s0.updCtx e x (fun k => { k with ms := operandsLeave k.ms fl false }))
    else firingFault s0 e x fl code val
  | .emit rs sw posts =>
    let running := heldOp fl.opc && (match sw with
      | some w => bit w 63
      | none => false)
    let s1 := s0.updCtx e x (fun k => { k with
      ms := operandsLeave k.ms fl running
      sw := match sw with
        | some w => vset k.sw fl.k w
        | none => k.sw })
    finish (emitAll (landPosts s1 e x posts) e x fl.k rs)

/-- The firings of an element in progress, each with its context slot, the next to complete first. -/
def nextFiring (el : Elem) : Option (Nat × Firing) :=
  leastBy (fun p => [p.2.ends, p.1]) ((List.range 4).flatMap (fun x => (vget el.ctx x ctxFree).inflight.map (fun f => (x, f))))

/-- R149 FIRING_COMPLETION: the firing of slot `k` in progress completes, in the element cycle in which it ends. -/
def execFiringCompletion (s : State) : Result :=
  onUnit (okX s.arg.e s.arg.x) (
    let e := s.arg.e
    match (s.ctxOf e s.arg.x).inflight.find? (fun f => f.k == s.arg.k) with
    | none => s
    | some fl =>
      let el := s.elemOf e
      completeFiring (s.setElem e { el with cyc := max el.cyc fl.ends }) e s.arg.x fl)

/-! Acceptance -/

/-- A token is taken from a route by its receiver: it leaves the FIFO and its sender's custody. -/
def leaveFifo (s : State) (e x r p : Nat) (t : Tok) : State :=
  left (popFifo s e x r) (clusterOfElem e) p (countedFor t).1 (countedFor t).2

/-- A token of a route as its receiver sees it: the route writes PORT (R65). -/
def onRoute (rt : Word) (t : Tok) : Tok := { t with port := BitVec.ofNat 4 (rtPORT rt) }

/-- The head of a route is a token for the receiver's matching store. -/
def tokenWaits (s : State) (e x r : Nat) : Bool :=
  match fifoHead s e x r with
  | some t => !(t.kind == .kill || t.kind == .commit || t.kind == .mark) && routeOpen s e x r t
  | none => false

/-- R67 TOKEN_ACCEPT: the receiver accepts the head of a route's FIFO, spills it, or drops it. -/
def execTokenAccept (s : State) : Result :=
  onUnit (okX s.arg.e s.arg.x) (
    let e := s.arg.e
    let x := s.arg.x
    let r := s.arg.r
    match fifoHead s e x r with
    | none => s
    | some t =>
      if !tokenWaits s e x r then s
      else
        let c := s.ctxOf e x
        let rt := vget c.routes r 0
        let fresh := !staleTok s (clusterOfElem (rtElem rt)) c.plid t
        let s1 := if fresh then channelToken s (rtElem rt) (rtCTX rt) (chanRoute c.velem r) (rtNET rt) (onRoute rt t) else s
        match arrive s1 (rtElem rt) (rtCTX rt) c.plid (chanRoute c.velem r) (rtNET rt) (onRoute rt t) with
        | .taken s2 => leaveFifo s2 e x r c.plid t
        | .refused _ => (arrive s (rtElem rt) (rtCTX rt) c.plid (chanRoute c.velem r) (rtNET rt) (onRoute rt t)).state)

/-! KILL and COMMIT (R163 to R165, R239, R286) -/

/-- R163: a token in the scope of a KILL. -/
def killScope (iw : Nat) (t u : Tok) : Bool :=
  u.spec != 0 && bit t.payload (u.spec.toNat - 1) && u.frame == t.frame && u.gen == t.gen && outer iw u.iter == outer iw t.iter

/-- R164: a token in the scope of a COMMIT. -/
def commitScope (t u : Tok) : Bool :=
  u.spec != 0 && bit t.payload (u.spec.toNat - 1) && u.frame == t.frame && u.gen == t.gen && u.iter == t.iter

/-- R163 item 4: a firing in progress after a KILL: its results in scope are not emitted, and where none is left its slot-state word is not written. (DEDUCED, unsafe: log 24.) -/
def Firing.killed (iw : Nat) (t : Tok) (fl : Firing) : Firing :=
  let inScope := killScope iw t
  match fl.out with
  | .fault _ _ => if inScope fl.tag then { fl with cancel := true } else fl
  | .emit rs sw posts =>
    let kept := rs.filter (fun r => !inScope r.tok)
    let none' := if rs.isEmpty then inScope fl.tag else kept.isEmpty
    { fl with out := .emit kept (if none' then none else sw) (posts.filter (fun p => match p with
        | .entry m => !inScope m.tag
        | _ => true)) }

/-- R164: a firing in progress after a COMMIT: its results in scope carry SPEC 0. -/
def Firing.committed (t : Tok) (fl : Firing) : Firing :=
  let free (u : Tok) : Tok := if commitScope t u then { u with spec := 0 } else u
  { fl with
    tag := free fl.tag
    out := match fl.out with
      | .fault c v => .fault c v
      | .emit rs sw posts => .emit (rs.map (fun r => { r with tok := free r.tok })) sw (posts.map (fun p => match p with
          | .entry m => .entry { m with tag := free m.tag }
          | q => q)) }

/-- The slot that owns an input port (R105); a port of the scale network feeds the MMAS slot (R207). -/
def portOwner (c : Ctx) (net : Bool) (port : Nat) : Option (BitVec 32) :=
  (c.words.toList).find? (fun w => w != vacant && (if net then wOPC w == 0xA1 else wSA w == port || wSB w == port))

/-- R165: the operators at which a KILL or COMMIT stops. -/
def stopOperator (opc : Nat) : Bool :=
  [0x01, 0x02, 0x03, 0x0D, 0x0E, 0x0F, 0x0B, 0x12, 0x13, 0x10, 0x11, 0x04, 0x05, 0x40, 0x58].contains opc
    || decide (0x43 ≤ opc ∧ opc ≤ 0x56)

/-- R165: the operators at which a KILL or COMMIT acts on entries and commands: the memory-port and edge-port ones, and the event operators of R170. -/
def reachesEntries (opc : Nat) : Bool := decide (0x43 ≤ opc ∧ opc ≤ 0x58)

/-- R165: the routes on which a KILL or COMMIT accepted on a port goes on. (DEDUCED, unsafe: log 31.) -/
def forwardRoutes (c : Ctx) (net : Bool) (port : Nat) : List Nat :=
  match portOwner c net port with
  | none => []
  | some w => if stopOperator (wOPC w) then [] else ([wD0 w, wD1 w].eraseDups).filter (fun d => decide (d < 14))

/-- The routes have positions for the forwarded copies, and no marker is due on them (R361). -/
def forwardRoom (c : Ctx) (f : Nat) (rts : List Nat) : Bool :=
  rts.all (fun r => decide (fifoUsed c r + 1 ≤ 4) && !c.stagings.any (fun z => z.frame == f && z.fwd.contains r))

/-- R366: entries that leave a port without performing hold no append any longer. -/
def dropHolds (s : State) (e : Nat) (ms : List MemEntry) : State :=
  ms.foldl (fun st m => logDrop st m.plid (mFrame m) (fun h => h.kind == 0 && h.loc == e && h.num == m.id)) s

/-- R239, R353: an entry's request has not left its element: it has not been sent, or it is a write to a place outside the package that waits for its log entry. -/
def unsent (s : State) (e : Nat) (m : MemEntry) : Bool :=
  (!mSent m && m.st != .walking)
    || (m.st == .sent && logHolds (s.frameOf m.plid (mFrame m)).log 0 e m.id && m.lines.all (fun l => outside l.loc)
      && m.todo.length == (if mOpc m = 0x52 then 2 else (events m).length))

/-- R239, R286: a KILL annihilates the entries and commands of a context in its scope; an entry that was sent has its answer
discarded, and a test sent to an event cluster is withdrawn (R170). -/
def killEntries (s : State) (e x : Nat) (t : Tok) : State :=
  let c := s.ctxOf e x
  let iw := ccwIW c.ccw
  let el := s.elemOf e
  let mine (m : MemEntry) : Bool := m.x == x && m.plid == c.plid && killScope iw t m.tag
  let gone (m : MemEntry) : Bool := mine m && (unsent s e m || (mOpc m == 0x58 && !mPerformed m))
  let port := (el.port.filter (fun m => !gone m)).map (fun m => if mine m then { m with dead := true } else m)
  let s1 := dropHolds (s.setElem e { el with port := port }) e (el.port.filter gone)
  let s2 := s1.updCtx e x (fun k => { k with fifo := Vector.ofFn (fun i : Fin 14 =>
    if rtTGT (vget k.routes i.val 0) = 1 then (vget k.fifo i.val []).filter (fun u => !killScope iw t u) else vget k.fifo i.val []) })
  { s2 with clusters := s2.clusters.map (fun k => (k.1, { k.2 with ce := k.2.ce.filter (fun y =>
    !(y.plid == c.plid && y.sender == some (c.vp, c.el) && y.spec != 0 && killScope iw t y.tag)) })) }

/-- R239, R286: a COMMIT sets SPEC to 0 in its scope and moves an entry to the end of entry order. -/
def commitEntries (s : State) (e x : Nat) (t : Tok) : State :=
  let c := s.ctxOf e x
  let el := s.elemOf e
  let mine (m : MemEntry) : Bool := m.x == x && m.plid == c.plid && !m.dead && commitScope t m.tag
  let port := el.port.filter (fun m => !mine m) ++ (el.port.filter mine).map (fun m => { m with tag := { m.tag with spec := 0 } })
  let s1 := s.setElem e { el with port := port }
  let s2 := s1.updCtx e x (fun k => { k with fifo := Vector.ofFn (fun i : Fin 14 =>
    if rtTGT (vget k.routes i.val 0) = 1 then
      (vget k.fifo i.val []).map (fun u => if commitScope t u then { u with spec := 0 } else u)
    else vget k.fifo i.val []) })
  { s2 with clusters := s2.clusters.map (fun k => (k.1, { k.2 with ce := k.2.ce.map (fun y =>
    if y.plid = c.plid ∧ y.sender = some (c.vp, c.el) ∧ commitScope t y.tag then
      { y with spec := 0, tag := { y.tag with spec := 0 } } else y) })) }

/-- R163 to R165: a KILL or COMMIT acts on a context: its store, its firings in progress, later its spill area, and at a memory or edge port its entries. -/
def actOn (s : State) (e x : Nat) (net : Bool) (t : Tok) : State :=
  let c := s.ctxOf e x
  let iw := ccwIW c.ccw
  let kill := t.kind == .kill
  let c1 := { c with
    ms := if kill then c.ms.filter (fun m => !killScope iw t m.tok)
      else c.ms.map (fun m => if commitScope t m.tok then { m with tok := { m.tok with spec := 0 } } else m)
    inflight := c.inflight.map (fun f => if kill then f.killed iw t else f.committed t)
    spillKills := if hasSpill s c || !c.waitIn.isEmpty then c.spillKills ++ [t] else c.spillKills }
  let s1 := s.setCtx e x c1
  match portOwner c net t.port.toNat with
  | some w => if reachesEntries (wOPC w) then (if kill then killEntries s1 e x t else commitEntries s1 e x t) else s1
  | none => s1

/-- R163 to R165: a KILL or COMMIT is accepted on a port of a context: it acts, and its copies go on. -/
def acceptControl (s : State) (e x : Nat) (net : Bool) (t : Tok) : State :=
  let c := s.ctxOf e x
  let s1 := actOn s e x net t
  let s2 := (forwardRoutes c net t.port.toNat).foldl (fun st r => enterFifo st e x r t) s1
  throttle (left s2 (clusterOfElem e) c.plid t.frame.toNat t.gen) e x

/-- The head of a route is a KILL (or a COMMIT) that its receiver can accept: its copies have room. -/
def controlWaits (s : State) (e x r : Nat) (kind : Kind) : Bool :=
  match fifoHead s e x r with
  | some t =>
    let rt := vget (s.ctxOf e x).routes r 0
    let h := s.ctxOf (rtElem rt) (rtCTX rt)
    t.kind == kind && routeOpen s e x r t && forwardRoom h t.frame.toNat (forwardRoutes h (rtNET rt) (rtPORT rt))
  | none => false

/-- R75, R74, R163, R164: the head of a route, a KILL or COMMIT, reaches its receiver. -/
def controlAccept (s : State) (e x r : Nat) (t : Tok) : State :=
  let c := s.ctxOf e x
  let rt := vget c.routes r 0
  let u := onRoute rt t
  let cl := clusterOfElem (rtElem rt)
  let h := s.ctxOf (rtElem rt) (rtCTX rt)
  let fr := s.frameOf c.plid t.frame.toNat
  let s1 :=
    if h.st != .live || h.plid != c.plid || !frameTakes fr then strayDrop s cl (rtElem rt) (rtCTX rt) c.plid u
    else if staleTok s cl c.plid t then staleDrop s cl c.plid u
    else acceptControl (channelToken s (rtElem rt) (rtCTX rt) (chanRoute c.velem r) (rtNET rt) u) (rtElem rt) (rtCTX rt) (rtNET rt) u
  leaveFifo s1 e x r c.plid t

/-- R163 KILL_TOKEN_ACCEPT. -/
def execKillTokenAccept (s : State) : Result :=
  onUnit (okX s.arg.e s.arg.x) (
    match fifoHead s s.arg.e s.arg.x s.arg.r with
    | some t => if controlWaits s s.arg.e s.arg.x s.arg.r .kill then controlAccept s s.arg.e s.arg.x s.arg.r t else s
    | none => s)

/-- R164 COMMIT_TOKEN_ACCEPT. -/
def execCommitTokenAccept (s : State) : Result :=
  onUnit (okX s.arg.e s.arg.x) (
    match fifoHead s s.arg.e s.arg.x s.arg.r with
    | some t => if controlWaits s s.arg.e s.arg.x s.arg.r .commit then controlAccept s s.arg.e s.arg.x s.arg.r t else s
    | none => s)

/-! Spill areas -/

/-- R163 item 3, R164, R364 SPILL_AREA_ANNIHILATE: the oldest KILL or COMMIT still to act on the spill area, and on restored tokens that wait, does so. (DESIGN CHOICE, unsafe: log 125.) -/
def execSpillAreaAnnihilate (s : State) : Result :=
  onUnit (okX s.arg.e s.arg.x) (
    let e := s.arg.e
    let x := s.arg.x
    let c := s.ctxOf e x
    match c.spillKills with
    | [] => s
    | t :: rest =>
      let kill := t.kind == .kill
      let hit (u : Tok) : Bool := kill && killScope (ccwIW c.ccw) t u
      let freed (u : Tok) : Tok := if !kill && commitScope t u then { u with spec := 0 } else u
      let s1 := s.setCtx e x { c with
        spillKills := rest, waitIn := (c.waitIn.filter (fun w => !hit w.2)).map (fun w => (w.1, freed w.2)) }
      if kill then
        let gone := (s.spills.filter (fun v => spillOf c v && hit v.tok)).map (fun v => (v.cl, v.tok))
          ++ (c.waitIn.filter (fun w => hit w.2)).map (fun w => (clusterOfElem e, w.2))
        gone.foldl (fun st v => left st v.1 c.plid v.2.frame.toNat v.2.gen)
          (throttle { s1 with spills := s1.spills.filter (fun v => !(spillOf c v && hit v.tok)) } e x)
      else
        { s1 with spills := s1.spills.map (fun v =>
            if spillOf c v then { v with tok := freed v.tok } else v) })

/-- R72 SPILL_RETURN: the oldest spilled token of a context returns to its matching store; a stale one is dropped (R74). -/
def execSpillReturn (s : State) : Result :=
  onUnit (okX s.arg.e s.arg.x) (if spillReturns s s.arg.e s.arg.x then returnSpill s s.arg.e s.arg.x else s)

/-! Stale tokens (R74, R239) -/

/-- The stale tokens that a context holds in its matching store and spill area and in waiting, operands of firings in progress left out, and its entries that have not left the
element. -/
def staleOf (s : State) (e x : Nat) : List (Nat × Tok) :=
  let c := s.ctxOf e x
  let busy (m : MsEntry) : Bool := match m.st with
    | .firing _ => true
    | _ => false
  if c.st == .free then []
  else
    ((c.ms.filter (fun m => !busy m && staleTok s (clusterOfElem e) c.plid m.tok)).map (fun m => (clusterOfElem e, m.tok)))
      ++ ((s.spills.filter (fun v => spillOf c v && staleTok s (clusterOfElem e) c.plid v.tok)).map (fun v => (v.cl, v.tok)))
      ++ ((c.waitIn.filter (fun w => staleTok s (clusterOfElem e) c.plid w.2)).map (fun w => (clusterOfElem e, w.2)))
      ++ (((s.elemOf e).port.filter (fun m => m.x == x && !m.dead && unsent s e m && mStale s e m)).map
          (fun m => (clusterOfElem e, m.tag)))

/-- R74, R239: the sweep of one context. -/
def sweepCtx (s : State) (e x : Nat) : State :=
  let c := s.ctxOf e x
  let gone := staleOf s e x
  if gone.isEmpty then s
  else
    let busy (m : MsEntry) : Bool := match m.st with
      | .firing _ => true
      | _ => false
    let el := s.elemOf e
    let gone' (m : MemEntry) : Bool := m.x == x && !m.dead && unsent s e m && mStale s e m
    let s1 := dropHolds (s.setElem e { el with port := el.port.filter (fun m => !gone' m) }) e (el.port.filter gone')
    let s2 := s1.updCtx e x (fun k => { k with
      ms := k.ms.filter (fun m => busy m || !staleTok s (clusterOfElem e) c.plid m.tok)
      waitIn := k.waitIn.filter (fun w => !staleTok s (clusterOfElem e) c.plid w.2) })
    let s3 := { s2 with spills := s2.spills.filter (fun v => !(spillOf c v && staleTok s (clusterOfElem e) c.plid v.tok)) }
    throttle (gone.foldl (fun st g => staleDrop st g.1 c.plid g.2) s3) e x

/-- R74 STALE_SWEEP: an element drops the stale tokens of its contexts. -/
def execStaleSweep (s : State) : Result :=
  onUnit (okE s.arg.e) ((List.range 4).foldl (fun st x => sweepCtx st s.arg.e x) s)

/-! Settlements (R329) -/

/-- A settled fault can take effect: its context is live, its routes have room, and no marker of a cut is still due on them (R361). -/
def settleable (s : State) (p : Pending) : Bool :=
  match p.settle, holderOf s p.plid p.vp p.el with
  | some (rs, _), some (e, x) => (s.ctxOf e x).st == .live && roomFor (s.ctxOf e x) rs
      && !(s.ctxOf e x).stagings.any (fun z => z.frame == p.frame && rs.any (fun r => z.fwd.contains r.dest))
  | _, _ => false

/-- R329 SETTLEMENT_TAKE_EFFECT: the operands of fault `k` of home cluster `c` leave, its results enter their FIFOs, D0's first, and a SELF write lands. -/
def execSettlementTakeEffect (s : State) : Result :=
  onUnit (okC s.arg.c) (
    match (s.clusterOf s.arg.c).dir.find? (fun p => p.id == s.arg.k) with
    | none => s
    | some p =>
      if !settleable s p then s
      else
        match p.settle, holderOf s p.plid p.vp p.el with
        | some (rs, sw), some (e, x) =>
          let s1 := s.updCluster s.arg.c (fun k => { k with dir := k.dir.filter (fun q => q.id != p.id) })
          let s2 := s1.updCtx e x (fun c => { c with
            ms := c.ms.filter (fun m => m.st != .fault p.id false && m.st != .fault p.id true)
            sw := match sw with
              | some w => vset c.sw p.k w
              | none => c.sw })
          throttle (left (emitAll s2 e x p.k rs) (clusterOfElem e) p.plid p.frame (BitVec.ofNat 2 p.gen)) e x
        | _, _ => s)

end Sys2Proof.Machine
end

