-- ==== Sys2Proof/Machine/Image.lean ====
section
/-! DEFINITION. The image of a graph (R116 to R118) and every check that GLOAD makes of it (R80, R96, R103 to R115, R148, R182, R202, R240, R284, R294,
R414, R421). -/

namespace Sys2Proof.Machine

/-! Parts of an image -/

/-- An unsigned field of `n` bytes at a byte offset. -/
def leAt (bs : List Byte) (o n : Nat) : Nat := leNat ((bs.drop o).take n)

/-- R116: fields of the header. -/
def imN (bs : List Byte) : Nat := leAt bs 8 2
def imNENTRY (bs : List Byte) : Nat := leAt bs 10 1
def imSIZE (bs : List Byte) : Nat := leAt bs 12 4
def imENTOFF (bs : List Byte) : Nat := leAt bs 16 4
def imCTXOFF (bs : List Byte) : Nat := leAt bs 20 4
def imINITOFF (bs : List Byte) : Nat := leAt bs 24 4
def imINITSIZE (bs : List Byte) : Nat := leAt bs 28 4

/-- R117: the entry words. -/
def imEntries (bs : List Byte) : List Word := (List.range (imNENTRY bs)).map (fun k => word (leAt bs (imENTOFF bs + 8 * k) 8))

/-- R118: the record of virtual element `i`. -/
def imRecord (bs : List Byte) (i : Nat) : List Byte := (bs.drop (imCTXOFF bs + 512 * i)).take 512

/-- R118: parts of a record. -/
def rcWord (r : List Byte) (k : Nat) : BitVec 32 := BitVec.ofNat 32 (leAt r (4 * k) 4)
def rcAttr (r : List Byte) (k : Nat) : Word := word (leAt r (64 + 8 * k) 8)
def rcState (r : List Byte) (k : Nat) : Word := word (leAt r (192 + 8 * k) 8)
def rcRoute (r : List Byte) (k : Nat) : Word := word (leAt r (320 + 8 * k) 8)
def rcCcw (r : List Byte) : Word := word (leAt r 432 8)
def rcPart (r : List Byte) : Word := word (leAt r 440 8)
def rcTsinit (r : List Byte) : Word := word (leAt r 448 8)
def rcWbinit (r : List Byte) : Word := word (leAt r 456 8)

/-- R118: COUNT and offset of an initial-data word. -/
def inCount (w : Word) : Nat := field w 32 8
def inOff (w : Word) : Nat := field w 0 32

/-- The number of standing tile slots of a record (R179). -/
def rcStanding (r : List Byte) : Nat := inCount (rcTsinit r)

/-! The header (R116) -/

/-- Two byte ranges overlap. -/
def rangesOverlap (a b : Nat × Nat) : Bool := decide (0 < a.2 ∧ 0 < b.2) && rangesMeet a.1 a.2 b.1 b.2

/-- No two of some ranges overlap. -/
def disjointRanges : List (Nat × Nat) → Bool
  | [] => true
  | a :: l => l.all (fun b => !rangesOverlap a b) && disjointRanges l

/-- R116: the parts that a header names. -/
def imParts (h : List Byte) : List (Nat × Nat) :=
  [(0, 64), (imENTOFF h, 8 * imNENTRY h), (imCTXOFF h, 512 * (4 * imN h)), (imINITOFF h, imINITSIZE h)]

/-- R116, R96: the checks of the 64-byte header. -/
def headerOk (h : List Byte) : Bool :=
  leAt h 0 4 == 0x3149474C && leAt h 4 2 == 1 && leAt h 6 2 == 0 && decide (1 ≤ imN h ∧ imN h ≤ 2304)
    && decide (1 ≤ imNENTRY h ∧ imNENTRY h ≤ 64) && leAt h 11 1 == 0 && leAt h 32 32 == 0
    && imSIZE h % 64 == 0 && imENTOFF h % 64 == 0 && imCTXOFF h % 64 == 0 && imINITOFF h % 4096 == 0 && imINITSIZE h % 4096 == 0
    && (imParts h).all (fun p => decide (p.1 + p.2 ≤ imSIZE h)) && disjointRanges (imParts h)

/-! Instruction words (R103 to R108, R113, R143 to R145, R178, R284) -/

/-- R113: the assigned opcodes. -/
def assignedOpc (opc : Nat) : Bool :=
  decide (opc ≤ 0x15) || decide (0x20 ≤ opc ∧ opc ≤ 0x39) || decide (0x40 ≤ opc ∧ opc ≤ 0x4C) || decide (0x50 ≤ opc ∧ opc ≤ 0x5A)
    || decide (0x60 ≤ opc ∧ opc ≤ 0x88) || decide (0xA0 ≤ opc ∧ opc ≤ 0xA6)

/-- How an operand may be given (R143, R178): any source, only an input port, an input port or nothing, nothing, a tile, or a scalar. -/
inductive SourceRule where
  | free
  | port
  | portOrNone
  | absent
  | tile
  | scalar
  deriving DecidableEq, Repr

/-- R150, R178, R187, R204, R241, R288, R414, R423: the rule of operand A. -/
def ruleA (opc : Nat) (cfg : Word) : SourceRule :=
  if [0x01, 0x04, 0x05, 0x0D, 0x40, 0x50, 0x51, 0x56].contains opc then .port
  else if opc = 0x02 then (if bit cfg 1 then .port else .free)
  else if [0xA0, 0xA1, 0xA2, 0xA5].contains opc then .tile
  else if [0x66, 0x67, 0x84, 0x86, 0x87].contains opc || decide (0x75 ≤ opc ∧ opc ≤ 0x82) then .tile
  else if opc = 0x83 then (if field cfg 0 2 = 0 then .scalar else .tile)
  else .free

/-- The rule of operand B. -/
def ruleB (opc : Nat) (cfg : Word) : SourceRule :=
  if opc = 0x01 ∨ opc = 0x0D then .port
  else if opc = 0x02 then (if bit cfg 1 then .port else .absent)
  else if [0x04, 0x05, 0x40].contains opc then .portOrNone
  else if [0x44, 0x52, 0x84, 0xA0, 0xA1].contains opc then .tile
  else if opc = 0x49 then (if field cfg 10 2 = 3 then .tile else .free)
  else if opc = 0x86 then .scalar
  else if opc = 0x87 then (if field cfg 0 2 = 0 then .scalar else .tile)
  else if opc = 0xA6 then (if bit cfg 47 then .tile else .absent)
  else .free

/-- R178, R181: the operators whose attribute has an LT field. -/
def hasLT (opc : Nat) : Bool := decide (0x60 ≤ opc ∧ opc ≤ 0x88)

/-- A source code satisfies a rule; `lt` is LT of an attribute that has one. -/
def sourceOk (rule : SourceRule) (lt : Bool) (src : Nat) : Bool :=
  match rule with
  | .free => src != 15
  | .port => decide (src < 12)
  | .portOrNone => decide (src < 12) || src == 15
  | .absent => src == 15
  | .tile => decide (src < 12) || (src == 12 && lt)
  | .scalar => src != 15 && !(src == 12 && lt)

/-- R106: the destinations whose result is of KIND TILE. -/
def tileResult (opc : Nat) (cfg : Word) (second : Bool) : Bool :=
  if opc = 0x43 then !second
  else if opc = 0x52 then second
  else if opc = 0x75 then !second
  else if opc = 0x7F ∨ opc = 0x80 then field cfg 0 2 != 2
  else if opc = 0x86 then field cfg 0 2 != 0
  else if opc = 0xA4 then !second
  else decide (0x60 ≤ opc ∧ opc ≤ 0x88)

/-- R144: the operators that keep their own layout in their slot-state word. -/
def keepsState (opc : Nat) (cfg : Word) : Bool :=
  [0x04, 0x05, 0x0D, 0x58, 0x5A, 0x40].contains opc || (opc == 0x02 && bit cfg 1)

/-- R144, R150, R162, R167, R187, R194, R209, R241, R414: the operators whose second destination has a result of its own, which may go to SELF; of every
other operator D1 is a copy, or is not produced. -/
def ownSecond (opc : Nat) : Bool :=
  [0x00, 0x03, 0x07, 0x0A, 0x0D, 0x0E, 0x10, 0x15, 0x43, 0x45, 0x48, 0x49, 0x52, 0x75, 0x76, 0xA4].contains opc

/-- R105, R106, R112, R144, R157, R284, R288, R313, R423: a destination of a word. -/
def destOk (opc : Nat) (cfg : Word) (r : List Byte) (second : Bool) (d : Nat) : Bool :=
  if opc = 0x40 ∧ second then d == 15
  else if d < 14 then
    let rt := rcRoute r d
    let edge := rtV rt && rtTGT rt == 1
    rtV rt && (if opc = 0x50 ∨ opc = 0x51 then edge && rtEPN rt == 0 else if opc = 0x56 then edge && rtEPN rt == 1 else !edge)
  else if d = 14 then !tileResult opc cfg second && !keepsState opc cfg && !([0x50, 0x51, 0x56].contains opc) && (!second || ownSecond opc)
  else !([0x50, 0x51, 0x56].contains opc && !second)

/-- The input ports that a word names. -/
def portsOf (w : BitVec 32) : List Nat := if w = vacant then [] else [wSA w, wSB w].filter (fun c => decide (c < 12))

/-- R105: an input port of this word is named by another slot of the record. (DESIGN CHOICE, unsafe: log 121.) -/
def portShared (r : List Byte) (k : Nat) : Bool :=
  (List.range 16).any (fun j => j != k && (portsOf (rcWord r j)).any (fun p => (portsOf (rcWord r k)).contains p))

/-- R80, R105 to R107, R113, R143, R145, R178, R284: the code with which instruction slot `k` of a record is rejected. (DEDUCED, unsafe: log 33.) -/
def slotFault (r : List Byte) (k : Nat) : Option Nat :=
  let w := rcWord r k
  let opc := wOPC w
  let cfg := rcAttr r (wATR w)
  let lt := hasLT opc && bit cfg 10
  if w = vacant then none
  else if !assignedOpc opc then some cILLEGAL
  else if (decodeElem w).isNone || wSA w == 15 then some cRESERVED
  else if configured opc && wATR w == 15 && (wSA w == 12 || wSB w == 12) then some cRESERVED
  else if !sourceOk (ruleA opc cfg) lt (wSA w) then some cRESERVED
  else if ((decodeElem w).bind Instr.elemFields).any (fun f => f.usesB) && !sourceOk (ruleB opc cfg) lt (wSB w) then some cRESERVED
  else if opc == 0x0D && (wTA w == 6 || wTA w == 7) then some cRESERVED
  else if !destOk opc cfg r false (wD0 w) || !destOk opc cfg r true (wD1 w) then some cRESERVED
  else if portShared r k then some cRESERVED
  else none

/-! Attribute entries (WHERE 16) -/

/-- Only the bits of a mask are set. -/
def onlyBits (w mask : Word) : Bool := w &&& ~~~mask == 0

/-- R122, R187: the format classes F, W, I and X. -/
def clsF (f : Nat) : Bool := decide (f ≤ 5)
def clsW (f : Nat) : Bool := decide (f ≤ 2)
def clsI (f : Nat) : Bool := decide (6 ≤ f ∧ f ≤ 11)
def clsX (f : Nat) : Bool := decide (f ≤ 11)

/-- R196: the result formats of a sum. -/
def sumFormat (i o : Nat) : Bool := o == i || (clsF i && o == 0) || (clsI i && o == (if fmtSigned i then 0xA else 0xB))

/-- R187: IF and OF that an operator accepts. -/
def vecFormats (opc i o : Nat) : Bool :=
  if (0x60 ≤ opc ∧ opc ≤ 0x67) then clsF i && o == i
  else if (0x68 ≤ opc ∧ opc ≤ 0x6C) ∨ (0x72 ≤ opc ∧ opc ≤ 0x74) then clsI i && o == i
  else if opc = 0x6D then clsX i && clsI o
  else if opc = 0x75 then clsX i && clsX o
  else if opc = 0x76 then i == 0 && o == 1
  else if (0x77 ≤ opc ∧ opc ≤ 0x7E) then clsW i && clsW o
  else if opc = 0x7F ∨ opc = 0x81 then clsX i && sumFormat i o
  else if opc = 0x88 then i == 0 && clsX o
  else clsX i && o == i

/-- R181, R198, R200: the OPF and K that an operator accepts. -/
def vecFields (opc : Nat) (w : Word) : Bool :=
  let opf := vOPF w
  let k := vK w
  let i := vIF w
  let inFormat := decide (32 ≤ fmtBits i) || decide (k < 2 ^ fmtBits i)
  let kshape := decide (k < 2 ^ 12) && decide (shapeBytes (vOF w) (k / 64 % 64 + 1) ((k % 64 + 1) * colMult (vOF w)) ≤ 4096)
  if opc = 0x63 then decide (opf ≤ 1)
  else if 0x68 ≤ opc ∧ opc ≤ 0x6A then decide (opf ≤ 1) && k == 0
  else if opc = 0x6D then decide (opf ≤ 6) && k == 0
  else if opc = 0x6E ∨ opc = 0x85 then opf == 0 && inFormat
  else if 0x7F ≤ opc ∧ opc ≤ 0x81 then decide (opf ≤ 2) && k == 0
  else if opc = 0x84 then decide (opf ≤ 1) && k == 0
  else if opc = 0x86 then decide (opf ≤ 2) && (if opf = 0 then decide (k < 2 ^ 21) else k == 0)
  else if opc = 0x87 then decide (opf ≤ 2) && decide (k < 2 ^ 13)
  else if opc = 0x83 then
    decide (opf ≤ 2) && kshape && (opf != 1 || k % 64 == 0) && (opf != 2 || k / 64 == 0)
  else if opc = 0x88 then opf == 0 && kshape
  else opf == 0 && k == 0

/-- R182: the entries that require MRG = 1. -/
def vecMerge (opc : Nat) (w : Word) : Bool :=
  if opc = 0x6D ∨ opc = 0x75 ∨ (0x77 ≤ opc ∧ opc ≤ 0x7E) then bit w 21 || vOF w == vIF w
  else if opc = 0x6E ∨ opc = 0x76 then bit w 21
  else true

/-- R182: LT = 1 names a standing tile of format IF, for an operator that takes one. -/
def vecStanding (opc : Nat) (w d : Word) (standing : Nat) : Bool :=
  !bit w 10 || (validDescriptor (d &&& 0xFFFF00FFFFFFFFFF#64) && decide (dTSLOT d < standing) && dFMT d == vIF w
    && opc != 0x88 && !(opc == 0x83 && vOPF w == 0))

/-- R182: the attribute word of a tile vector operator. -/
def vectorAttrOk (opc : Nat) (w d : Word) (standing : Nat) : Bool :=
  let mnew := field w 11 8
  vecFormats opc (vIF w) (vOF w) && vecFields opc w && vecMerge opc w
    && (if bit w 19 then mnew == 0xFF || decide (mnew < standing) else mnew == 0)
    && vecStanding opc w d standing && (opc != 0x76 || vRM w == 0)

/-- R203: the format pairs. -/
def matrixPair (opc af bf : Nat) (ak : Bool) : Bool :=
  let e (f : Nat) : Bool := f == 3 || f == 4
  if opc = 0xA2 then e af && (bf == 3 || bf == 0xD) && !ak
  else if ak then opc == 0xA0 && (af == 6 || af == 7) && (bf == 6 || bf == 7)
  else (e af && e bf) || (af == 5 && bf == 5) || (af == 1 && bf == 1) || (af == 2 && bf == 2)

/-- R202: the attribute word of a matrix operator. -/
def matrixAttrOk (opc : Nat) (w part : Word) : Bool :=
  let ak := bit w 49
  let rm0 := !ak || field w 50 2 == 0
  let acc := decide (field w 28 4 < pACG part)
  let rows := field w 37 5 + 1
  let cols := field w 32 5 + 1
  let o := field w 52 4
  acc && (match opc with
    | 0xA0 => onlyBits w 0xFF0E0000F0000000#64 && matrixPair opc (field w 60 4) (field w 56 4) ak && rm0
    | 0xA1 => onlyBits w 0xFF0E0000F0000000#64 && matrixPair opc (field w 60 4) (field w 56 4) ak && rm0
    | 0xA2 => onlyBits w 0xFF0E7C00F0000000#64 && matrixPair opc (field w 60 4) (field w 56 4) ak && rm0
    | 0xA3 => onlyBits w 0xF0000000#64
    | 0xA4 => onlyBits w 0x00FF03FFF0000000#64 && clsX o && cols % colMult o == 0 && decide (shapeBytes o rows cols ≤ 4096)
    | 0xA5 => onlyBits w 0x00020000F0000000#64
    | _ => onlyBits w 0x000E8000FF000000#64 && rm0 && (if bit w 47 then field w 24 4 == 0 else decide (field w 24 4 < pACG part)))

/-- R240, R237, R294, R414: the attribute word of a memory operator. -/
def memAttrOk (opc : Nat) (w part : Word) : Bool :=
  let sem := field w 16 2
  let load := decide (sem ≤ 1)
  let store := sem == 0 || sem == 2
  let scope := decide (field w 18 3 ≤ 5)
  scope && (match opc with
    | 0x43 => onlyBits w 0xFFFFFFFFFF1F0100#64 && load && describable (field w 60 4) (field w 54 6 + 1) ((field w 48 6 + 1) * colMult (field w 60 4))
        && clsX (field w 60 4)
    | 0x44 => onlyBits w 0x0000FFFFFF1F0000#64 && store
    | 0x45 => onlyBits w 0x1F0F00 && load
    | 0x46 => onlyBits w 0x1F0C00 && store
    | 0x47 => onlyBits w 0x1FFC00 && decide (field w 12 4 ≤ 8 ∧ 2 ≤ field w 10 2)
    | 0x48 => onlyBits w 0x1FFC00 && decide (field w 12 4 ≤ 8 ∧ 2 ≤ field w 10 2)
    | 0x49 => onlyBits w 0x1F0C00 && decide (2 ≤ field w 10 2)
    | 0x4A => onlyBits w 0x1C0000
    | 0x4B => onlyBits w 0x0000FFFFFF1C0000#64 && decide (field w 24 24 ≤ 31)
    | 0x4C => onlyBits w 0x0FFFFFF0001F0100#64 && load && decide (field w 48 12 + field w 36 12 + 1 ≤ pWBG part * 32)
    | 0x52 => onlyBits w 0x0000000FFF1F0000#64 && field w 18 3 == 4 && store
    | _ => onlyBits w 0x1C3FFF && field w 0 2 != 0)

/-- R148, R152 to R177: the attribute word of a control, scalar, address or event operator. -/
def controlAttrOk (opc : Nat) (w : Word) : Bool :=
  match opc with
  | 0x02 => onlyBits w 0x3 && (!bit w 1 || bit w 0)
  | 0x03 => onlyBits w 0x7F
  | 0x04 => onlyBits w 0x3 && field w 0 2 != 3
  | 0x05 => onlyBits w 0x1
  | 0x07 => onlyBits w 0x7 && field w 0 3 != 0
  | 0x0D => onlyBits w 0x7F && w != 0
  | 0x12 => onlyBits w 0x3FFFF && decide (1 ≤ field w 12 6 ∧ field w 12 6 ≤ 32) && field w 0 12 != 0
  | 0x13 => onlyBits w 0x1
  | 0x24 => onlyBits w 0x7
  | 0x25 => onlyBits w 0x3
  | 0x32 => onlyBits w 0x7 && decide (field w 0 3 < 6)
  | 0x34 => onlyBits w 0x1FFFF
  | 0x35 => onlyBits w 0xFFFF
  | 0x38 => onlyBits w 0x5
  | 0x39 => onlyBits w 0x4
  | 0x42 => onlyBits w 0xFFFFFFFF000000FF#64
  | 0x57 => onlyBits w 0x3FF && field w 8 2 != 3
  | 0x58 => onlyBits w 0x1FF
  | 0x5A => onlyBits w 0x80000000FFFFFFFF#64
  | _ => true

/-- WHERE 16 for one slot: its attribute entry is rejected. -/
def attrFault (r : List Byte) (k : Nat) : Bool :=
  let w := rcWord r k
  let opc := wOPC w
  let cfg := rcAttr r (wATR w)
  if w = vacant then false
  else if 0x60 ≤ opc ∧ opc ≤ 0x88 then !vectorAttrOk opc cfg (rcAttr r (wATR w + 1)) (rcStanding r) || (wATR w == 15 && bit cfg 10)
  else if 0xA0 ≤ opc then !matrixAttrOk opc cfg (rcPart r)
  else if (0x43 ≤ opc ∧ opc ≤ 0x4C) ∨ opc = 0x52 ∨ opc = 0x53 then !memAttrOk opc cfg (rcPart r)
  else !controlAttrOk opc cfg

/-- R108: the colour map. -/
def colourFault (r : List Byte) : Bool :=
  let ws := (List.range 16).map (fun k => (k, rcWord r k))
  let live := ws.filter (fun p => p.2 != vacant)
  live.any (fun p => wTA p.2 == 6) &&
    (live.any (fun p => wTA p.2 == 6 && field (rcAttr r 15) (3 * p.1) 3 == 0)
      || live.any (fun p => wATR p.2 == 15 || (configured (wOPC p.2) && wATR p.2 == 14 && (wSA p.2 == 12 || wSB p.2 == 12)))
      || field (rcAttr r 15) 48 16 != 0)

/-! Routes, configuration, partition and initial data (R112, R55, R82, R118) -/

/-- R105: an operand of a record owns an input port. -/
def ownsPort (r : List Byte) (p : Nat) : Bool := (List.range 16).any (fun k => (portsOf (rcWord r k)).contains p)

/-- WHERE 17: a route entry of an image. -/
def routeOk (bs : List Byte) (w : Word) : Bool :=
  if !rtV w then w == 0
  else
    onlyBits w 0xF000FFFFFFF00000#64 && decide (rtTGT w ≤ 1) && rtCTX w == 0 && decide (rtPLOT w < imN bs)
      && (if rtTGT w = 1 then !rtNET w && rtELEM w == 0 && rtPORT w == 0 && decide (rtEPN w ≤ 1)
          else rtEPN w == 0 && (if rtNET w then decide (rtPORT w ≤ 1)
            else decide (rtPORT w ≤ 11) && ownsPort (imRecord bs (4 * rtPLOT w + rtELEM w)) (rtPORT w)))

/-- WHERE 18. -/
def ccwOk (w part : Word) : Bool :=
  onlyBits w 0x0000003FFFE007F7#64 && decide (ccwIW w ≤ 16) && decide (10 ≤ ccwQEXP w ∧ ccwQEXP w ≤ 40)
    && decide (ccwTHR w < pMSG part * 128)

/-- WHERE 19. -/
def partOk (w : Word) : Bool :=
  onlyBits w 0x000000FFFFFFFFFF#64 && decide (1 ≤ pMSG w ∧ pMSG w ≤ 16) && decide (pACG w ≤ 16) && decide (pTSG w ≤ 127)
    && decide (pSum w ≤ 128)

/-- WHERE 20: an initial-data word against the granules that it fills. -/
def initOk (bs : List Byte) (w : Word) (granules : Nat) : Bool :=
  onlyBits w 0x000000FFFFFFFFFF#64 && decide (inCount w ≤ granules) && (inCount w != 0 || inOff w == 0)
    && decide (inOff w + inCount w * 4096 ≤ imINITSIZE bs)

/-! The whole image -/

/-- R96: what a REJECTED status names. -/
structure Reject where
  code : Nat
  vplot : Nat
  elem : Nat
  pos : Nat
  deriving DecidableEq, Repr

/-- R118: the first failing check of record `i`. (DESIGN CHOICE, unsafe: log 122.) -/
def recordFault (bs : List Byte) (i : Nat) : Option Reject :=
  let r := imRecord bs i
  let at' (code pos : Nat) : Option Reject := some ⟨code, i / 4, i % 4, pos⟩
  match (List.range 16).findSome? (fun k => (slotFault r k).map (fun c => (c, k))) with
  | some (c, k) => at' c k
  | none =>
    if (List.range 16).any (attrFault r) || colourFault r then at' cRESERVED 16
    else if !(List.range 14).all (fun k => routeOk bs (rcRoute r k)) then at' cRESERVED 17
    else if !ccwOk (rcCcw r) (rcPart r) then at' cRESERVED 18
    else if !partOk (rcPart r) then at' cRESERVED 19
    else if !(initOk bs (rcTsinit r) (pTSG (rcPart r)) && initOk bs (rcWbinit r) (pWBG (rcPart r)) && leAt r 464 48 == 0) then at' cRESERVED 20
    else none

/-- WHERE 20: an entry word. -/
def entryOk (bs : List Byte) (w : Word) : Bool :=
  onlyBits w 0x3FFFF0 && decide (field w 10 12 < imN bs) && decide (entPORT w ≤ 11) && ownsPort (imRecord bs (entVelem w)) (entPORT w)

/-- R80, R118: the first failing check of an image whose header has passed. -/
def imageFault (bs : List Byte) : Option Reject :=
  if !(imEntries bs).all (entryOk bs) then some ⟨cRESERVED, 0, 0, 20⟩
  else (List.range (4 * imN bs)).findSome? (recordFault bs)

/-- R116: the status of a rejected header. (DESIGN CHOICE, unsafe: log 120.) -/
def headerReject : Reject := ⟨cRESERVED, 0, 0, 20⟩

/-- R96: the REJECTED status word. -/
def rejectStatus (r : Reject) : Word := word (at' 1 56 + at' r.code 48 + at' r.vplot 36 + at' r.elem 34 + at' r.pos 29)

/-- R78: the routes of an image between virtual elements. -/
def imEdges (bs : List Byte) : List Edge :=
  (List.range (4 * imN bs)).flatMap (fun i =>
    let r := imRecord bs i
    (List.range 14).filterMap (fun k =>
      let w := rcRoute r k
      if rtV w then some { src := i, r := k, tgt := rtTGT w, dst := 4 * rtPLOT w + rtELEM w, port := rtPORT w } else none))

/-- R421: the virtual plots that need die 5. -/
def imGuestPlots (bs : List Byte) : List Nat :=
  (List.range (imN bs)).filter (fun v => (List.range 4).any (fun e => (List.range 14).any (fun k =>
    let w := rcRoute (imRecord bs (4 * v + e)) k
    rtV w && rtTGT w == 1 && rtEPN w == 1)))

end Sys2Proof.Machine
end

