-- ==== Sys2Proof/Machine/Place.lean ====
section
/-! DEFINITION. The placement agent (R83 to R89): the fit of plot-contexts, the mapping of an image, writing its contexts, releasing them, compaction and
moves; and what instructions of class P and packets share (R94, R95). -/

namespace Sys2Proof.Machine

/-! Outcomes of class P -/

/-- What an operation of class P answers: done, with its status word, or waiting. -/
inductive OpResult where
  | done (s : State) (st : Word)
  | wait (s : State) (w : SeqWait)
  deriving DecidableEq, Repr

/-- R94: a status word of ST, CODE and low bits. -/
def statusWord (st code low : Nat) : Word := word (at' st 56 + at' code 48 + low)

def stOK : Nat := 0
def stREJECTED : Nat := 1
def stNOPLACE : Nat := 2
def stNOPLID : Nat := 3
def stBUSY : Nat := 4
def stNOFRAME : Nat := 5
def stBADSTATE : Nat := 6
def stBADARG : Nat := 7
def stNOSPILL : Nat := 8
def stNOFAULT : Nat := 9
def stNOTILE : Nat := 0xA
def stNOROOM : Nat := 0xB
def stNOLOGMODE : Nat := 0xC
def stNOCUT : Nat := 0xD
def stCROSSED : Nat := 0xE
def stWINMAX : Nat := 0xF

/-- An operation that answers a bare status. -/
def OpResult.status (s : State) (st : Nat) : OpResult := OpResult.done s (statusWord st 0 0)

/-- R95: the sequencer that executes issues an operation of class P: its status goes to g[d] after 12 cycles, or it waits. -/
def seqOp (d : BitVec 5) (r : OpResult) : State :=
  match r with
  | .done t st => t.result d st 12
  | .wait t w => t.setMe { t.me with wait := some w }

/-- A frame name of R94: PLID and FRAME. -/
def namePLID (a : Word) : Nat := field a 0 14
def nameFRAME (a : Word) : Nat := field a 14 10

/-! Fit (R84, R421) -/

/-- The granules free at an element. -/
def freeGranules (s : State) (e : Nat) : Nat :=
  128 - ((s.elemOf e).ctx.toList.map (fun c => if c.st == .free then 0 else pSum c.part)).sum

/-- R84, R421: a plot-context fits a virtual plot of given partition words; one that needs the guest port fits on die 5 only. -/
def fits (s : State) (parts : List Word) (guest : List Nat) (v : Nat) (pc : Nat × Nat) : Bool :=
  (!guest.contains v || pc.1 / 384 == 5)
    && (List.range 4).all (fun e => (s.ctxOf (4 * pc.1 + e) pc.2).st == .free
        && decide (pSum (parts.getD (4 * v + e) 0) ≤ freeGranules s (4 * pc.1 + e)))

/-- The first plot-context of some physical plots that fits, plots of `used` left out. -/
def firstFit (s : State) (parts : List Word) (guest : List Nat) (v : Nat) (used : List Nat) (ps : List Nat) : Option (Nat × Nat) :=
  ps.findSome? (fun p => if used.contains p then none
    else ((List.range 4).find? (fun x => fits s parts guest v (p, x))).map (fun x => (p, x)))

/-- R85 MapAll over the physical plots `ps`, for virtual plots `vs`. -/
def mapAll (s : State) (parts : List Word) (guest : List Nat) (ps : List Nat) : List Nat → List Nat → Option (List (Nat × Nat))
  | [], _ => some []
  | v :: vs, used =>
    match firstFit s parts guest v used ps with
    | none => none
    | some pc => (mapAll s parts guest ps vs (pc.1 :: used)).map (fun l => pc :: l)

/-- The physical plots of a die. -/
def diePlots (d : Nat) : List Nat := (List.range 384).map (fun i => 384 * d + i)

/-- R85 Place: where the virtual plots of an image go. -/
def placeMap (s : State) (n : Nat) (parts : List Word) (guest : List Nat) (oneDie : Bool) : Option (List (Nat × Nat)) :=
  match (List.range 6).findSome? (fun d => mapAll s parts guest (diePlots d) (List.range n) []) with
  | some m => some m
  | none => if oneDie then none else mapAll s parts guest (List.range 2304) (List.range n) []

/-- The partition words of an image. -/
def imParts' (bs : List Byte) : List Word := (List.range (4 * imN bs)).map (fun i => rcPart (imRecord bs i))

/-- Place for an image. -/
def placeImage (s : State) (bs : List Byte) (oneDie : Bool) : Option (List (Nat × Nat)) :=
  placeMap s (imN bs) (imParts' bs) (imGuestPlots bs) oneDie

/-! Writing contexts (R83, R87 step 5, R96) -/

/-- R87 step 5, R96: a route as placed: physical plot and context slot of its target; an edge port has no slot. -/
def placedRoute (w : Word) (tgt : Nat) (pc : Nat × Nat) : Word :=
  setField (setField w 36 12 pc.1) 32 2 (if tgt = 1 then 0 else pc.2)

/-- Every route of a placement whose target is resident names it where it stands. -/
def rewriteRoutes (s : State) (p : Nat) : State :=
  match s.placeOf p with
  | none => s
  | some pl => pl.edges.foldl (fun st d =>
      match holderOf st p (d.src / 4) (d.src % 4), pl.map.getD (d.dst / 4) none with
      | some (e, x), some pc => st.updCtx e x (fun c => { c with routes := vset c.routes d.r (placedRoute (vget c.routes d.r 0) d.tgt pc) })
      | _, _ => st) s

/-- R118, R179: the pool of a new context: zeros, then the image's initial contents. -/
def initialPool (bs r : List Byte) : Memory :=
  let part := rcPart r
  let put (m : Memory) (w : Word) (granule : Nat) : Memory :=
    memWrite m (granule * 4096) ((bs.drop (imINITOFF bs + inOff w)).take (inCount w * 4096))
  put (put [] (rcTsinit r) (pMSG part)) (rcWbinit r) (pMSG part + pTSG part + pACG part)

/-- R96, R118, R170, R349: the context that an image's record gives virtual element `i` of placement `p` at element `e`, being written. -/
def imageCtx (bs : List Byte) (p i e : Nat) : Ctx :=
  let r := imRecord bs i
  { ctxFree with
    st := .filling, plid := p, vp := i / 4, el := i % 4
    words := Vector.ofFn (fun k : Fin 16 => rcWord r k.val)
    attr := Vector.ofFn (fun k : Fin 16 => rcAttr r k.val)
    sw := Vector.ofFn (fun k : Fin 16 => rcState r k.val)
    routes := Vector.ofFn (fun k : Fin 14 => rcRoute r k.val)
    ccw := setField (rcCcw r) 38 14 p
    part := rcPart r, standing := rcStanding r, pool := initialPool bs r, evcl := clusterOfElem e }

/-- R85: the lowest free placement identifier. (DESIGN CHOICE, unsafe: log 19.) -/
def freePlid (s : State) : Option Nat := (List.range 9216).find? (fun p => (s.placeOf p).isNone)

/-- R85 Commit and R96: an image is placed at a map under PLID `p`: its placement and its contexts. (DESIGN CHOICE, unsafe: log 118.) -/
def commitImage (s : State) (p : Nat) (bs : List Byte) (m : List (Nat × Nat)) (root : Option (Word × Nat)) (transient : Bool) : State :=
  let pl : Placement := {
    n := imN bs, entries := imEntries bs, parts := imParts' bs
    tsinit := (List.range (4 * imN bs)).map (fun i => rcStanding (imRecord bs i))
    edges := imEdges bs, guestPlots := imGuestPlots bs, map := m.map some, saved := [], stagedIn := [], moving := none, saving := [], root := root
    prio := none, oneDie := m.all (fun a => m.all (fun b => a.1 / 384 == b.1 / 384)), frames := [], transient := transient }
  let s1 := { s with places := Tab.set s.places p pl }
  let s2 := (List.range (4 * imN bs)).foldl (fun st i =>
    match m[i / 4]? with
    | some pc => st.setCtx (4 * pc.1 + i % 4) pc.2 (imageCtx bs p i (4 * pc.1 + i % 4))
    | none => st) s1
  rewriteRoutes s2 p

/-! Releasing (R83, R97) -/

/-- R73: what a context slot reads as once it is free: its two counters stand until GLOAD zeroes them. -/
def freedCtx (c : Ctx) : Ctx := { ctxFree with spillcnt := c.spillcnt, throtcnt := c.throtcnt }

/-- A context slot becomes free, with what is left of its entries. -/
def freeSlot (s : State) (e x : Nat) : State :=
  let el := s.elemOf e
  s.setElem e { el with ctx := vset el.ctx x (freedCtx (vget el.ctx x ctxFree)), port := el.port.filter (fun m => m.x != x) }

/-- The four context slots of a plot-context become free. -/
def freePlotContext (s : State) (pc : Nat × Nat) : State := (List.range 4).foldl (fun st e => freeSlot st (4 * pc.1 + e) pc.2) s

/-- R97: a placement is removed. -/
def removePlacement (s : State) (p : Nat) : State :=
  match s.placeOf p with
  | none => s
  | some pl =>
    let s1 := pl.map.foldl (fun st m => match m with
      | some pc => freePlotContext st pc
      | none => st) s
    { s1 with
      places := Tab.del s1.places p, releases := s1.releases + 1
      clusters := s1.clusters.map (fun k => (k.1, { k.2 with dir := k.2.dir.filter (fun d => d.plid != p) })) }

/-- R97: the custody of a placement in every frame and generation is zero. -/
def placementEmpty (s : State) (p : Nat) : Bool :=
  match s.placeOf p with
  | none => true
  | some pl =>
    s.elems.all (fun e => e.2.port.all (fun m => m.plid != p || m.dead) && e.2.ctx.toList.all (fun c => c.st == .free || c.plid != p
        || (c.ms.isEmpty && c.fifo.toList.all (·.isEmpty) && c.inflight.isEmpty && c.waitIn.isEmpty && c.marksIn.isEmpty)))
      && s.spills.all (fun t => t.plid != p)
      && s.clusters.all (fun k => k.2.ce.all (fun y => y.plid != p || y.sender.isNone))
      && s.guest.tags.all (fun t => t.2.plid != p)
      && pl.saved.all (fun v => v.toks.all (·.dropped)) && pl.stagedIn.isEmpty
      && pl.frames.all (fun f => !f.2.hold && f.2.ringHolds == 0)

/-- R349: a context of a placement is being written. -/
def beingFilled (s : State) (p : Nat) : Bool := s.elems.any (fun e => e.2.ctx.toList.any (fun c => c.st == .filling && c.plid == p))

/-- R97 GEVICT; with a queue's root given, another root is BUSY (R302). -/
def opGevict (s : State) (a : Word) (root : Option (Option (Word × Nat))) : OpResult :=
  if field a 14 50 != 0 then .status s stBADARG
  else
    match s.placeOf (namePLID a) with
    | none => .status s stNOPLID
    | some pl =>
      if (match root with
          | some r => pl.root != r
          | none => false) then .status s stBUSY
      else if pl.moving.isSome || !pl.saving.isEmpty || beingFilled s (namePLID a) then .wait s .again
      else if pl.frames.any (fun f => f.2.st != .free) || !placementEmpty s (namePLID a) then .status s stBUSY
      else .status (removePlacement s (namePLID a)) stOK

/-! Spill pages (R89) -/

/-- The pages of a cluster's spill pool that no frame holds. -/
def pagesFree (s : State) (c : Nat) : Nat :=
  64 - (s.places.map (fun p => (p.2.frames.map (fun f => if f.2.st == .free then 0 else Tab.getD f.2.pages c 0)).sum)).sum

/-- R89: the allocated frames of a placement that hold no pages in a cluster are granted theirs, if its pool has them. -/
def grantPages (s : State) (p c : Nat) : State :=
  match s.placeOf p with
  | none => s
  | some pl => (Tab.keys pl.frames).foldl (fun st f =>
      let fr := st.frameOf p f
      if fr.st != .free && (Tab.get? fr.pages c).isNone && decide (fr.csp ≤ pagesFree st c) then
        st.updFrame p f (fun r => { r with pages := Tab.set r.pages c fr.csp })
      else st) s

/-- The clusters that a placement occupies. -/
def placeClusters (pl : Placement) : List Nat := (pl.map.filterMap (fun m => m.map (fun pc => pc.1 / 4))).eraseDups

/-! Draining (R87 steps 1 and 2, R341 steps 1 and 2) -/

/-- The plot-context of a virtual plot is paused and its input routes are held back. -/
def setPlotState (s : State) (pc : Nat × Nat) (st : CtxSt) : State :=
  (List.range 4).foldl (fun t e => t.updCtx (4 * pc.1 + e) pc.2 (fun c => { c with st := st })) s

/-- R170: a test at another event cluster that has not been met. -/
def unmetTest (m : MemEntry) : Bool := mOpc m == 0x58 && m.st == .sent

/-- An entry of a draining context that goes on: it can be translated or sent, or its answer is under way. -/
def entryGoesOn (s : State) (e : Nat) (m : MemEntry) : Bool :=
  let held := logHolds (s.frameOf m.plid (mFrame m)).log 0 e m.id
  !(unmetTest m || (m.dead && m.st == .translated)) &&
    (m.st == .walking || m.st == .performed || m.st == .away
      || (m.st == .sent && !held && m.lines.all (fun l => poolThere s l.loc))
      || refillable s e m || (sendable s e m && !held) || answerable s e m)

/-- R87, R341: a draining context has no firing in progress, and no entry of it can go on. -/
def ctxDrained (s : State) (e x : Nat) : Bool :=
  (s.ctxOf e x).inflight.isEmpty && (s.elemOf e).port.all (fun m => m.x != x || !entryGoesOn s e m)

/-- The four contexts of a plot-context have drained. -/
def plotDrained (s : State) (pc : Nat × Nat) : Bool := (List.range 4).all (fun e => ctxDrained s (4 * pc.1 + e) pc.2)

/-- R341 step 2: the entries of a context that are held are discarded: their operands stand in the matching store again, with no record; an EVWAIT's phase
goes back. -/
def discardEntries (s : State) (e x : Nat) : State :=
  let el := s.elemOf e
  let mine := el.port.filter (fun m => m.x == x)
  let s1 := dropHolds (s.setElem e { el with port := el.port.filter (fun m => m.x != x) }) e mine
  mine.foldl (fun st m =>
    if m.dead then st
    else
      let back (o : Operand) : List MsEntry :=
        if o.fromMs then [{ tok := o.tok, slot := o.slot, net := false, ord := o.ord, st := .idle }] else []
      st.updCtx e x (fun c => { c with
        ms := c.ms ++ back m.opA ++ back m.opB
        sw := if mOpc m = 0x58 ∧ !bit m.attr 8 then vset c.sw m.k (vget c.sw m.k 0 ^^^ 1) else c.sw })) s1

/-! Moves (R86, R87) -/

/-- R88: an FKILL or a GEVICT of the placement waits for the end of a move: that of a sequencer, or of a queue's packet. -/
def movesAwaited (s : State) (p : Nat) : Bool :=
  s.seqs.any (fun c => c.2.wait == some .again && (match decodeSeq (fetchWord c.2) with
      | some (.fkill _ a) => namePLID (c.2.reg a) == p
      | some (.gevict _ a) => namePLID (c.2.reg a) == p
      | _ => false))
    || s.queues.any (fun q => q.2.going.any (fun g => g.wait == .op .again && leAt g.pkt.bytes 0 1 == 6 && leAt g.pkt.bytes 8 2 % 2 ^ 14 == p))

/-- R86, R88, R341: the PA may start to move a virtual plot of this placement. -/
def mayMove (s : State) (p : Nat) (pl : Placement) : Bool :=
  pl.moving.isNone && !movesAwaited s p && pl.saving.isEmpty && !beingFilled s p && !pl.frames.any (fun f => f.2.st == .killing || f.2.st == .rolling)

/-- R86: the first fitting plot-context below that of virtual plot `v`, on its placement's die where that lies on one die. -/
def lowerFit (s : State) (pl : Placement) (v : Nat) (pc : Nat × Nat) : Option (Nat × Nat) :=
  let used := (pl.map.filterMap (fun m => m.map (·.1))).filter (· != pc.1)
  let ps := (List.range (pc.1 + 1)).filter (fun p => !pl.oneDie || p / 384 == pc.1 / 384)
  let cand := ps.findSome? (fun p => if used.contains p then none
    else ((List.range (if p = pc.1 then pc.2 else 4)).find? (fun x => fits s pl.parts pl.guestPlots v (p, x))).map (fun x => (p, x)))
  cand

/-- The resident virtual plots: placement, virtual plot and plot-context, the highest physical position first. -/
def residents (s : State) : List (Nat × Nat × Nat × Nat) :=
  let all := s.places.flatMap (fun p => (List.range p.2.n).filterMap (fun v => (p.2.map.getD v none).map (fun pc => (p.1, v, pc.1, pc.2))))
  (List.range 9216).flatMap (fun i => let k := 9215 - i
    all.filter (fun r => 4 * r.2.2.1 + r.2.2.2 == k))

/-- R86: the next move of a compaction: placement, virtual plot, its plot-context and the one it goes to. -/
def nextMove (s : State) : Option (Nat × Nat × (Nat × Nat) × (Nat × Nat)) :=
  (residents s).findSome? (fun r =>
    match s.placeOf r.1 with
    | none => none
    | some pl =>
      if mayMove s r.1 pl then (lowerFit s pl r.2.1 (r.2.2.1, r.2.2.2)).map (fun y => (r.1, r.2.1, (r.2.2.1, r.2.2.2), y)) else none)

/-- R87 steps 1 and 2: a move begins. -/
def startMove (s : State) (p v : Nat) (x : Nat × Nat) : State :=
  setPlotState (s.updPlace p (fun pl => { pl with moving := some v })) x .draining

/-- A number of context slot `(e, x)` after a move of a plot-context. -/
def movedSlot (x y : Nat × Nat) (c : Nat × Nat) : Nat × Nat :=
  if c.1 / 4 = x.1 ∧ c.2 = x.2 then (4 * y.1 + c.1 % 4, y.2) else c

/-- Who holds an append after a move of a plot-context: a checkpoint and a guest packet go with the context that holds them. -/
def movedHolder (x y : Nat × Nat) (h : Holder) : Holder :=
  if h.kind = 2 then { h with loc := (movedSlot x y (h.loc, h.num)).1, num := (movedSlot x y (h.loc, h.num)).2 }
  else if h.kind = 3 then
    { h with loc := (movedSlot x y (h.loc, h.num / 16)).1, num := 16 * (movedSlot x y (h.loc, h.num / 16)).2 + h.num % 16 }
  else h

/-- The allocated frames of a placement. -/
def liveFrames (pl : Placement) : List Nat := (pl.frames.filter (fun (f : Nat × Frame) => f.2.st != FrameSt.free)).map (fun f => f.1)

/-- The frames and generations that count the tokens of a context; a marker counts in its frame's current generation. -/
def countedAt (s : State) (c : Ctx) : List (Nat × BitVec 2) :=
  (c.ms.map (fun m => m.tok) ++ c.fifo.toList.flatMap id ++ c.waitIn.map (·.2)).map countedFor
    ++ (c.marksIn.map (fun m => m.1) ++ (c.stagings.filter (fun z => !z.done && !z.marks.isEmpty)).map (fun z => z.frame)).map
      (fun f => (f, (s.frameOf c.plid f).gen))

/-- The plot-context that has been taken for a virtual plot that moves. -/
def takenPlot (s : State) (p v : Nat) : Option (Nat × Nat) :=
  (s.elems.findSome? (fun e => ((List.range 4).find? (fun x =>
    let c := vget e.2.ctx x ctxFree
    c.st == .filling && c.plid == p && c.vp == v)).map (fun x => (e.1 / 4, x))))

/-- R368: the step budgets of a context together with those that its slot has been given while the context was being written there. -/
def withBudgets (c slot : Ctx) : Tab Nat :=
  (slot.budget.filter (fun b => !slot.pauseReq.any (fun q => q.1 == b.1))).foldl (fun t b => Tab.set t b.1 (Tab.getD t b.1 0 + b.2)) c.budget

/-- R87 steps 3 to 6: the context state, the entries and the granules of a virtual plot stand at `y`, whose activity bits and those of `x` are set for the tokens
that it holds; entries that are held are discarded as at a save. Order and Wait of its slots go on, the cycles of one element counted from those of the other (R63). (DESIGN CHOICE, unsafe: log 119.) (DESIGN CHOICE, unsafe: log 132.) -/
def copyPlot (s : State) (p v : Nat) (x y : Nat × Nat) : State :=
  let u := (List.range 4).foldl (fun st e => updateOrder (updateOrder st (4 * x.1 + e)) (4 * y.1 + e)) s
  let s0 := (List.range 4).foldl (fun st e => discardEntries st (4 * x.1 + e) x.2) u
  let fs := ((List.range 4).flatMap (fun e => countedAt s0 (s0.ctxOf (4 * x.1 + e) x.2))).eraseDups
  let s1 := (List.range 4).foldl (fun st e =>
    let c := st.ctxOf (4 * x.1 + e) x.2
    let src := st.elemOf (4 * x.1 + e)
    let st1 := freeSlot st (4 * x.1 + e) x.2
    let dst := st1.elemOf (4 * y.1 + e)
    st1.setElem (4 * y.1 + e) { dst with
      ctx := vset dst.ctx y.2 { c with st := .live, budget := withBudgets c (st.ctxOf (4 * y.1 + e) y.2), order := c.order.map (fun o => (o.1, o.2.1 + dst.cyc - src.cyc, o.2.2)) }, nextOrd := max dst.nextOrd src.nextOrd }) s0
  let s2 := s1.updPlace p (fun pl => { pl with
    moving := none
    map := setAt pl.map v (some y)
    frames := pl.frames.map (fun f => (f.1, { f.2 with
      episodes := f.2.episodes.map (fun k => ((movedSlot x y (k.1, k.2.1)).1, (movedSlot x y (k.1, k.2.1)).2, k.2.2))
      log := { f.2.log with waiting := f.2.log.waiting.map (movedHolder x y), exempt := f.2.log.exempt.map (movedHolder x y) } })) })
  let s3 := grantPages (rewriteRoutes s2 p) p (y.1 / 4)
  let s4 := fs.foldl (fun st f => touch (left st (x.1 / 4) p f.1 f.2) (y.1 / 4) p f.1 f.2) s3
  unstall { s4 with releases := s4.releases + 1 }

/-! Attempts (R86) -/

/-- What an attempt to place gives: placed, or a move of the compaction has begun, or no room is left. -/
inductive Attempt where
  | placed (s : State) (plid : Nat)
  | moving (s : State)
  | none
  deriving DecidableEq, Repr

/-- R85, R86: an image is placed if it fits now and a PLID is free for it. -/
def tryPlace (s : State) (bs : List Byte) (oneDie : Bool) (root : Option (Word × Nat)) (transient : Bool) : Attempt :=
  match placeImage s bs oneDie, freePlid s with
  | some m, some p => .placed (commitImage s p bs m root transient) p
  | _, _ => .none

/-- R86: one step of the compaction for a requester: the image is placed, or the next move begins. -/
def compactStep (s : State) (bs : List Byte) (oneDie : Bool) (root : Option (Word × Nat)) (transient : Bool) (req : PaReq) : Attempt :=
  match tryPlace s bs oneDie root transient with
  | .placed t p => .placed t p
  | _ =>
    match nextMove s with
    | some (p, v, x, _) => .moving { (startMove s p v x) with pa := some req }
    | none => .none

/-- R87 step 3, R344, R349: the granules of plot-context `y` are taken for a virtual plot of a placement, whose state is being written there. -/
def takeGranules (s : State) (p v : Nat) (parts : List Word) (y : Nat × Nat) : State :=
  (List.range 4).foldl (fun st e => st.setCtx (4 * y.1 + e) y.2 { freedCtx (st.ctxOf (4 * y.1 + e) y.2) with
    st := .filling, plid := p, vp := v, el := e, part := parts.getD (4 * v + e) 0 }) s

/-- R86: NOPLACE; after the budget of a request that waits, with PLACEMENT. -/
def noPlace : Word := statusWord stNOPLACE cPLACEMENT 0

end Sys2Proof.Machine
end

