-- ==== Sys2Proof/Machine/Graph.lean ====
section
/-! DEFINITION. The instructions of group 0x30 (R93 to R102, R223, R253, R350, R375): GLOAD, GEVICT, FALLOC, FFREE, FKILL, TINJ and CENSUS. -/

namespace Sys2Proof.Machine

/-! Reading bytes for GLOAD and TINJ (R96, R101, R253) -/

/-- The lines of other packages that the sequencer's instruction has read. -/
def gotSoFar (q : Seq) : List (Nat × List Byte) :=
  match q.wait with
  | some (.gather got va cur _) => if cur.isEmpty then got else (va, cur) :: got
  | _ => []

/-- R86: the cycle at which the sequencer's instruction was issued. -/
def issuedAt (q : Seq) : Word :=
  match q.wait with
  | some (.gather _ _ _ n) => n
  | _ => q.cycle

/-- R27 rows 8 and 10, R96, R101: `n` bytes of local memory; BOUNDS, at the first byte beyond the window, comes before INTEGRITY, at the first byte that cannot be read. -/
def readLocal (q : Seq) (a n : Nat) : Gathered :=
  if windowSize < a + n then .err cBOUNDS (max a windowSize)
  else
    match (List.range n).find? (fun i => q.memErr.contains ((a + i) / 8)) with
    | some i => .err cINTEGRITY (a + i)
    | none => .ok (memRead q.mem a n) []

/-- R253: a Kernel-level read of the sequencer for GLOAD or TINJ. -/
def imageAccess (s : State) : Access := { kind := .read, task := false, fromSeq := true, plid := none, who := some (.seq s.cur), walker := some (.seq s.cur) }

/-- Bytes at an address of the sequencer: in local memory, or translated where translation is enabled. -/
def readForSeq (s : State) (a n : Nat) : Gathered :=
  let q := s.me
  if a < windowSize || !q.xe then readLocal q a n
  else gatherLines s (imageAccess s) s.cur q.tlb (seqRoot q) (gotSoFar q) (splitLines (n + 1) a n)

/-- The address of bytes that the sequencer's instruction reads for which a walk is still needed (R226). -/
def walkForSeq (s : State) (a n : Nat) : Option Nat :=
  if a < windowSize || !s.me.xe then none else walkNeeded s (imageAccess s) s.me.tlb s.cur (seqRoot s.me) (splitLines (n + 1) a n)

/-- The sequencer's instruction waits with what it has read so far, and with line `va` still to come, `cur` of it. -/
def gatherOn (s : State) (va : Nat) (cur : List Byte) : State :=
  s.setMe { s.me with wait := some (.gather (gotSoFar s.me) va cur (issuedAt s.me)) }

/-- What goes on once the bytes have been read: a trap, the wait for a walk or for a line, or a request to the package that holds the next line. -/
def withBytes (s0 : State) (a n : Nat) (k : State → List Byte → State) : State :=
  let s : State := if s0.me.wait.isNone then walksPast s0 (.seq s0.cur) else s0
  match walkForSeq s a n with
  | some va => askWalk (gatherOn s 0 []) (imageAccess s) s.cur (seqRoot s.me) va
  | none =>
    match readForSeq s a n with
    | .err c va =>
      let s1 : State := if a < windowSize || !s.me.xe then s else countErr s (imageAccess s) s.me.tlb s.cur (seqRoot s.me) va c
      (beatsPast s1 (.seq s.cur)).trap c 0 (word va)
    | .held => gatherOn s 0 []
    | .need va m p addr key => remoteRead (gatherOn s va (List.replicate m 0)) (.seq s.cur) p addr key 0 m
    | .ok bs ls => k (ls.foldl seqKeepLeaf (beatsPast s (.seq s.cur))) bs

/-! GLOAD (R96, R86, R223, R253) -/

/-- R223: the root that GLOAD records. -/
def gloadRoot (q : Seq) : Option (Word × Nat) := if q.xe then some (seqRoot q) else none

/-- R86: the outcome of an attempt for a GLOAD: its contexts are being written (R349), a move of the compaction, or, with WAIT, the wait for a release. -/
def gloadPlace (s : State) (d : Nat) (bs : List Byte) (oneDie wait : Bool) : OpResult :=
  let now := issuedAt s.me
  if s.pa.isSome then .wait s (.place d bs oneDie wait 0 s.releases now)
  else
    match compactStep s bs oneDie (gloadRoot s.me) false (.seq s.cur) with
    | .placed t p => .wait t (.filling d p (statusWord stOK 0 p))
    | .moving t => .wait t (.place d bs oneDie wait 1 t.releases now)
    | .none => if wait then .wait s (.place d bs oneDie true 2 s.releases now) else .done s noPlace

/-- R96 GLOAD: the header is read and checked first, then the whole image, then it is placed. (DEDUCED, unsafe: log 21.) -/
def execGload (d a b : BitVec 5) (s : State) : Result :=
  .next (kernelOnly (.gload d a b) s (
    let at' := s.reg a
    let opt := s.reg b
    if field opt 2 62 != 0 then seqOp d (.status s stBADARG)
    else if at'.toNat % 64 != 0 then s.trap cALIGNMENT 0 at'
    else
      withBytes s at'.toNat 64 (fun s1 h =>
        if !headerOk h then seqOp d (.done s1 (rejectStatus headerReject))
        else
          withBytes s1 at'.toNat (imSIZE h) (fun s2 bs =>
            match imageFault bs with
            | some r => seqOp d (.done s2 (rejectStatus r))
            | none => seqOp d (gloadPlace s2 d.toNat bs (bit opt 1) (bit opt 0))))))

/-- R97 GEVICT. -/
def execGevict (d a : BitVec 5) (s : State) : Result :=
  .next (kernelOnly (.gevict d a) s (seqOp d (opGevict s (s.reg a) none)))

/-! Frames -/

/-- R57: the clusters whose counts may hold a token of a placement. -/
def custodyClusters (s : State) (p : Nat) : List Nat :=
  match s.placeOf p with
  | none => []
  | some pl =>
    (placeClusters pl ++ (s.spills.filter (fun t => t.plid == p)).map (·.cl) ++ (s.guest.tags.filter (fun t => t.2.plid == p)).map (·.2.cl)
      ++ pl.saved.map (·.cl) ++ pl.stagedIn.map (·.cl) ++ pl.frames.map (·.2.home) ++ (s.rings.filter (fun r => r.2.plid == p)).map (·.2.cl)
      ++ (s.clusters.filter (fun k => k.2.ce.any (fun y => y.plid == p))).map (·.1)).eraseDups

/-- The custody of a frame's generation in the whole package. -/
def custodySum (s : State) (p f : Nat) (g : BitVec 2) : Nat := ((custodyClusters s p).map (fun c => custody s c p f g)).sum

/-- R371: the appends that are held or were held when the log was discarded, checkpoints left out: the writes that perform without entries. -/
def exempted (g : Log) : List Holder := (g.waiting ++ g.exempt).filter (fun h => h.kind != 2)

/-- R371, R368: a frame's log is discarded: markers, checkpoints and windows go, and held writes perform without entries. -/
def discardLog (s : State) (p f : Nat) : State :=
  let s1 : State := s.updFrame p f (fun r => { r with log := { logOff with exempt := exempted r.log } })
  let s2 : State := { s1 with elems := s1.elems.map (fun e => (e.1, { e.2 with ctx := e.2.ctx.map (fun c =>
      if c.plid = p ∧ c.st ≠ .free then
        { c with stagings := c.stagings.filter (fun z => z.frame != f), marksIn := c.marksIn.filter (fun m => m.1 != f) }
      else c) })) }
  unstall (s2.updPlace p (fun pl => { pl with saved := pl.saved.map (fun v => { v with ctxs := v.ctxs.map (fun c =>
    { c with stagings := c.stagings.filter (fun z => z.frame != f), marksIn := c.marksIn.filter (fun m => m.1 != f) }) }) }))

/-- R360, R368, R371: a frame's windows, pause and step budgets are cleared in every context. -/
def clearPause (s : State) (p f : Nat) : State :=
  let s1 : State := s.updFrame p f (fun r => { r with paused := false })
  let s2 : State := { s1 with elems := s1.elems.map (fun e => (e.1, { e.2 with ctx := e.2.ctx.map (fun c =>
      if c.plid = p ∧ c.st ≠ .free then
        { c with wins := Tab.del c.wins f, budget := Tab.del c.budget f, paused := c.paused.filter (· != f),
                 pauseReq := c.pauseReq.filter (fun q => q.1 != f) }
      else c) })) }
  s2.updPlace p (fun pl => { pl with saved := pl.saved.map (fun v => { v with ctxs := v.ctxs.map (fun c =>
    { c with wins := Tab.del c.wins f, budget := Tab.del c.budget f, paused := c.paused.filter (· != f),
             pauseReq := c.pauseReq.filter (fun q => q.1 != f), stagings := c.stagings.filter (fun z => z.frame != f),
             marksIn := c.marksIn.filter (fun m => m.1 != f) }) }) })

/-- R98: the lowest frame number that FALLOC may take. -/
def freeFrame (s : State) (p : Nat) : Option Nat :=
  (List.range 1024).find? (fun f => (s.frameOf p f).st == .free && custodySum s p f ((s.frameOf p f).gen + 1) == 0)

/-- R98: an HBM spill region as FALLOC takes it. -/
def regionOk (s : State) (b n : Word) : Bool :=
  b.toNat % 4096 == 0 && n.toNat % 4096 == 0
    && (if n = 0 then b == 0 else decide (b.toNat + n.toNat ≤ 2 ^ 44) && hbmPresent s b.toNat && hbmPresent s (b.toNat + n.toNat - 1))

/-- R91, R98: the frame that FALLOC opens. -/
def openFrame (s : State) (p f home csp : Nat) (even : Bool) (evb : Nat) (region size : Nat) : State :=
  let cls := match s.placeOf p with
    | some pl => placeClusters pl
    | none => []
  let s1 : State := clearPause s p f
  let g := (s1.frameOf p f).gen + 1
  let s2 : State := s1.updFrame p f (fun _ => { frameFree with
    st := .opened, gen := g, home := home, even := even, evb := evb, csp := csp, region := region, regionSize := size
    pages := cls.foldl (fun t c => Tab.set t c csp) [], hold := true })
  touch s2 home p f g

/-- R98 FALLOC on behalf of a home cluster: a frame number, or a status. -/
def allocFrame (s : State) (home p csp : Nat) (even : Bool) (evb region size : Nat) : Except Nat (State × Nat) :=
  match s.placeOf p with
  | none => .error stNOPLID
  | some pl =>
    match freeFrame s p with
    | none => .error stNOFRAME
    | some f =>
      if !(placeClusters pl).all (fun c => decide (csp ≤ pagesFree s c)) then .error stNOSPILL
      else .ok (openFrame s p f home csp even evb region size, f)

/-- R98 FALLOC. -/
def opFalloc (s : State) (home : Nat) (a b c : Word) : OpResult :=
  if a &&& ~~~0x1FF7F3FFF#64 != 0 || decide (64 < field a 16 7) || !regionOk s b c then .status s stBADARG
  else
    match allocFrame s home (namePLID a) (field a 16 7) (bit a 32) (field a 24 8) b.toNat c.toNat with
    | .error st => .status s st
    | .ok (t, f) => .done t (statusWord stOK 0 (at' (t.frameOf (namePLID a) f).gen.toNat 10 + f))

/-- R98 FALLOC. -/
def execFalloc (d a b c : BitVec 5) (s : State) : Result :=
  .next (kernelOnly (.falloc d a b c) s (seqOp d (opFalloc s s.cur (s.reg a) (s.reg b) (s.reg c))))

/-- R94: an operation on a named frame: the checks of the name, then what is done. -/
def onFrame (s : State) (a : Word) (k : Nat → Nat → OpResult) : OpResult :=
  if field a 24 40 != 0 then .status s stBADARG
  else if (s.placeOf (namePLID a)).isNone then .status s stNOPLID
  else k (namePLID a) (nameFRAME a)

/-- R99, R303: a frame becomes FREE; a launch whose frame a handler freed ends. -/
def freeFrameNow (s : State) (p f : Nat) : State :=
  let fr := s.frameOf p f
  let s1 : State := clearPause (discardLog s p f) p f
  let s2 : State := s1.updFrame p f (fun r => { frameFree with gen := r.gen })
  match fr.launch with
  | some (q, k) => s2.due .launchCompletion { q := q, k := k, ok := fr.st == .complete }
  | none => s2

/-- R99: nothing but the hold is in custody in any generation. -/
def onlyHold (s : State) (p f : Nat) : Bool :=
  custodySum s p f (s.frameOf p f).gen == (s.frameOf p f).hold.toNat
    && custodySum s p f ((s.frameOf p f).gen + 1) == 0 && custodySum s p f ((s.frameOf p f).gen + 2) == 0
    && custodySum s p f ((s.frameOf p f).gen + 3) == 0

/-- R99 FFREE. -/
def opFfree (s : State) (a : Word) : OpResult :=
  onFrame s a (fun p f =>
    let fr := s.frameOf p f
    if fr.st == .complete || (fr.st == .opened && onlyHold s p f) then .status (freeFrameNow s p f) stOK
    else .status s stBADSTATE)

/-- R99 FFREE. -/
def execFfree (d a : BitVec 5) (s : State) : Result := .next (kernelOnly (.ffree d a) s (seqOp d (opFfree s (s.reg a))))

/-- R100, R88, R371 FKILL: the frame enters KILLING, its log, pause and windows go, and its bump begins. -/
def opFkill (s : State) (d : Nat) (a : Word) : OpResult :=
  onFrame s a (fun p f =>
    let fr := s.frameOf p f
    if (match s.placeOf p with
        | some pl => pl.moving.isSome
        | none => false) then .wait s .again
    else if fr.st == .opened || fr.st == .running || fr.st == .deadlocked then
      let s1 : State := clearPause (discardLog s p f) p f
      .wait (s1.updFrame p f (fun r => { r with st := .killing, bump := some .kill, hold := false })) (.bump d p f)
    else .status s stBADSTATE)

/-- R100 FKILL. -/
def execFkill (d a : BitVec 5) (s : State) : Result :=
  .next (kernelOnly (.fkill d a) s (seqOp d (opFkill s d.toNat (s.reg a))))

/-- R57: a bump into the next generation may begin: no token of the generation last numbered so is left. -/
def mayBump (s : State) (p f : Nat) : Bool := custodySum s p f ((s.frameOf p f).gen + 1) == 0

/-- R57: the bump of a frame begins: every cluster's table still gives the generation that is left behind. -/
def startBump (s : State) (p f : Nat) : State :=
  s.updFrame p f (fun r => { r with gen := r.gen + 1, old := custodyClusters s p, round := none, asked := [], announced := false })

/-- R57, R330, R347: the crier of cluster `c` updates its table: the frame's faults of the generation left behind leave the directory, but for those
that an instruction has settled before; images and staged tokens that the cluster counts drop theirs. -/
def updateTable (s : State) (p f c : Nat) : State :=
  let g := (s.frameOf p f).gen
  let s1 : State := s.updFrame p f (fun r => { r with old := r.old.filter (· != c), quiet := Tab.del r.quiet (4 * c + g.toNat) })
  let oldS (h : SavedTok) : Bool := h.frame == f && BitVec.ofNat 2 h.gen != g && !h.dropped
  let oldT (t : StagedIn) : Bool := t.cl == c && t.tok.frame.toNat == f && t.tok.gen != g
  let n := match s1.placeOf p with
    | none => 0
    | some pl => ((pl.saved.filter (fun v => v.cl == c)).map (fun v => v.toks.countP oldS)).sum + pl.stagedIn.countP oldT
  let s2 : State := s1.updCluster c (fun k => { k with
    stalecnt := k.stalecnt + word n
    act := k.act.filter (· != (p, f, g.toNat))
    marked := k.marked.filter (fun m => !(m.1 == p && m.2.1 == f))
    dir := k.dir.filter (fun x => !(x.plid == p && x.frame == f && BitVec.ofNat 2 x.gen != g && x.settle.isNone)) })
  s2.updPlace p (fun q => { q with
    saved := q.saved.map (fun v => if v.cl = c then
      { v with toks := v.toks.map (fun h => if oldS h then { h with dropped := true } else h) } else v)
    stagedIn := q.stagedIn.filter (fun t => !oldT t) })

/-- R57: one event of a bump: the first cluster's table once the bump may begin, or another's; none where cluster `c` has nothing to update. -/
def bumpTable (s : State) (p f c : Nat) : Option State :=
  if (s.frameOf p f).old.isEmpty then
    (if mayBump s p f && (custodyClusters s p).contains c then some (updateTable (startBump s p f) p f c) else none)
  else if (s.frameOf p f).old.contains c then some (updateTable s p f c)
  else none

/-! TINJ (R101, R346, R360) -/

/-- R346: the cluster that counts what is staged for a virtual plot, where that is saved or draining for a save. -/
def stagesAt (pl : Placement) (vp : Nat) : Option Nat :=
  match pl.saved.find? (fun v => v.vp == vp) with
  | some v => some v.cl
  | none => if pl.saving.any (fun w => w.1 == vp) then (pl.map.getD vp none).map (fun pc => pc.1 / 4) else none

/-- R101, R346: a token or a marker enters a placement from outside on a channel into a virtual element: it is staged where the plot is saved or draining,
waits while the plot is moving or being written, or a marker on its channel or a restored token waits before it, and else reaches the context past its hold-back. -/
def inject (s : State) (p ve chan : Nat) (t : Tok) : Arrival :=
  match s.placeOf p with
  | none => .taken s
  | some pl =>
    match stagesAt pl (ve / 4) with
    | some cl =>
      .taken (touch (s.updPlace p (fun q => { q with
        stagedIn := q.stagedIn ++ [{ vp := ve / 4, el := ve % 4, chan := chan, cl := cl, tok := t }] })) cl p t.frame.toNat t.gen)
    | none =>
      if !plotOpen pl (ve / 4) then .refused s
      else
        match holderOfVelem s p ve with
        | none => .refused s
        | some (e, x) =>
          if (s.ctxOf e x).st == .filling then .refused s
          else if t.kind == .mark then
            .taken (touch (markArrives s e x t.frame.toNat t.payload.toNat chan) (clusterOfElem e) p t.frame.toNat t.gen)
          else if !(s.ctxOf e x).waitIn.isEmpty || (s.ctxOf e x).marksIn.any (fun m => m.2.2 == chan) then .refused s
          else
            match arrive (channelToken s e x chan false t) e x p chan false t with
            | .taken s1 => .taken s1
            | .refused _ => .refused (arrive s e x p chan false t).state

/-- R90: the injection hold of a frame is released and the frame runs. -/
def releaseHold (s : State) (p f : Nat) : State :=
  let s1 : State := s.updFrame p f (fun r => { r with hold := false, st := if r.st == .opened then .running else r.st })
  left s1 (s1.frameOf p f).home p f (s1.frameOf p f).gen

/-- R101: the operand bits of TINJ that need no placement. -/
def tinjArgsOk (a b : Word) : Bool :=
  let k := field a 31 3
  field a 37 11 == 0 && (k == 0 || k == 1 || k == 2 || k == 6) && (k == 2 || field a 34 3 == 0) && (k != 1 || validDescriptor b)

/-- R101: the token that TINJ injects. -/
def tinjToken (s : State) (p f : Nat) (a b : Word) (port : Nat) (tile : Option (List Byte)) : Tok :=
  { tokZero with
    gen := (s.frameOf p f).gen, frame := BitVec.ofNat 10 f, iter := BitVec.ofNat 16 (field a 48 16), kind := kindOf (field a 31 3)
    level := BitVec.ofNat 3 (field a 34 3), port := BitVec.ofNat 4 port, payload := b, tile := tile }

/-- R101: the status with which TINJ ends before it delivers anything, which comes before a fault on its tile bytes. -/
def tinjRefusal (s : State) (a b : Word) : Option Nat :=
  if !tinjArgsOk a b then some stBADARG
  else
    match s.placeOf (namePLID a) with
    | none => some stNOPLID
    | some pl =>
      if pl.entries.length ≤ field a 24 6 then some stBADARG
      else if (s.frameOf (namePLID a) (nameFRAME a)).st != .opened then some stBADSTATE
      else none

/-- R101: TINJ delivers its token, or waits until that is accepted; one that waits is executed again whole. (DESIGN CHOICE, unsafe: log 138.) -/
def opTinj (s : State) (a b : Word) (tile : Option (List Byte)) : OpResult :=
  let p := namePLID a
  let f := nameFRAME a
  let n := field a 24 6
  match (s.placeOf p).bind (fun pl => pl.entries[n]?) with
  | none => .status s stBADARG
  | some w =>
    match inject s p (entVelem w) (chanEntry n) (tinjToken s p f a b (entPORT w) tile) with
    | .refused t => .wait t .again
    | .taken t => .status (if bit a 30 then releaseHold t p f else t) stOK

/-- R101, R253 TINJ. -/
def execTinj (d a b c : BitVec 5) (s : State) : Result :=
  .next (kernelOnly (.tinj d a b c) s (
    let av := s.reg a
    let bv := s.reg b
    match tinjRefusal s av bv with
    | some st => seqOp d (.status s st)
    | none =>
      if field av 31 3 = 1 then
        (if (s.reg c).toNat % 64 != 0 then s.trap cALIGNMENT 0 (s.reg c)
        else withBytes s (s.reg c).toNat (shapeBytes (dFMT bv) (dRows bv) (dCols bv)) (fun s1 bs => seqOp d (opTinj s1 av bv (some bs))))
      else seqOp d (opTinj s av bv none)))

/-! CENSUS (R102, R223, R350, R375) -/

/-- R102: the items whose object names a cluster. -/
def clusterItem (n : Nat) : Bool := n == 1 || decide (4 ≤ n ∧ n ≤ 0xA) || n == 0xD || n == 0xE

/-- R91, R102, R375: a frame's state code. -/
def frameStCode : FrameSt → Nat
  | .free => 0
  | .opened => 1
  | .running => 2
  | .deadlocked => 3
  | .complete => 4
  | .killing => 5
  | .rolling => 6

/-- R349: a context slot's state code. -/
def ctxStCode : CtxSt → Nat
  | .free => 0
  | .filling => 1
  | .live => 2
  | .draining => 3

/-- R324: a cluster number as die and cluster fields. -/
def clusterField (c : Nat) : Nat := at' (c / 96) 7 + c % 96

/-- R375: the highest window that an element of a placement holds for a frame. -/
def highestWindow (s : State) (p f : Nat) : Nat :=
  let live := s.elems.flatMap (fun e => e.2.ctx.toList.filterMap (fun c =>
    if c.st != .free && c.plid == p then some (Tab.getD c.wins f 0) else none))
  let saved := match s.placeOf p with
    | some pl => pl.saved.flatMap (fun v => v.ctxs.map (fun c => Tab.getD c.wins f 0))
    | none => []
  (live ++ saved).foldl max 0

/-- R375: the last complete window, or 0xFFFF. -/
def lastComplete (g : Log) : Nat :=
  match (g.states.filter (fun w => w.2 == WinSt.complete || w.2 == WinSt.retired true)).getLast? with
  | some w => w.1
  | none => 0xFFFF

/-- The value of a CENSUS item for an object; none for an item that does not exist. The items of R375 have no stated value where the PLID is not placed: a
free value. (DESIGN CHOICE, safe: log 68.) -/
def censusItem (s : State) (item : Nat) (a : Word) : Option Word :=
  let p := namePLID a
  let f := nameFRAME a
  let cl := field a 31 3 * 96 + field a 24 7
  let e := cl * 16 + field a 34 4
  let x := field a 38 2
  let v := field a 24 12
  let pl := s.placeOf p
  let fr := s.frameOf p f
  let k := s.clusterOf cl
  let ofPlace (g : Placement → Word) : Word := match pl with
    | some q => g q
    | none => 0
  let ofLog (g : Placement → Word) : Word := match pl with
    | some q => g q
    | none => Config.freeWord s.free
  match item with
  | 0x00 => some (ofPlace (fun _ => word (at' (frameStCode fr.st) 61 + at' fr.gen.toNat 59 + at' (clusterField fr.home) 49 + at' fr.even.toNat 48
      + at' fr.evb 40 + fr.lastSum % 2 ^ 32)))
  | 0x01 => some (ofPlace (fun _ => word (custody s cl p f fr.gen)))
  | 0x02 => some (ofPlace (fun q => word (at' (if q.moving.isSome then 2 else 1) 62 + at' q.n 50 + at' (liveFrames q).length 39)))
  | 0x03 => some (ofPlace (fun q => match q.map.getD v none with
      | some pc => word (at' 1 63 + at' pc.1 2 + pc.2)
      | none => 0))
  | 0x04 => some (s.ctxOf e x).ccw
  | 0x05 => some (s.ctxOf e x).part
  | 0x06 => some (s.ctxOf e x).spillcnt
  | 0x07 => some (word (s.ctxOf e x).throtcnt.toNat)
  | 0x08 => some k.stalecnt
  | 0x09 => some k.straycnt
  | 0x0A => some (word (freeGranules s e))
  | 0x0B => some (match rootOf s p with
      | some r => word (at' 1 63 + r.2)
      | none => 0)
  | 0x0C => some (match rootOf s p with
      | some r => r.1
      | none => 0)
  | 0x0D => some k.poisoncnt
  | 0x0E => some (word (k.dir.countP (fun d => d.fseq.isSome && d.settle.isNone)))
  | 0x0F => some (ofPlace (fun q =>
      if q.n ≤ v then 0
      else match q.map.getD v none with
        | some pc =>
          let st := (s.ctxOf (4 * pc.1) pc.2).st
          word (at' (if st == .draining || st == .filling then 3 else 1) 62 + at' (ctxStCode st) 60)
        | none => if q.saved.any (fun w => w.vp == v && w.filling.isSome) then word (at' 3 62 + at' 1 60) else word (at' 2 62)))
  | 0x10 => some (ofLog (fun _ => word (at' fr.log.mode 62 + at' fr.paused.toNat 61 + at' fr.log.cut.isSome.toNat 60
      + at' (highestWindow s p f) 32 + at' (lastComplete fr.log) 16 + fr.log.floor)))
  | 0x11 => some (ofLog (fun _ => word fr.log.head))
  | 0x12 => some (ofLog (fun _ => word fr.log.tail))
  | _ => none

/-- R102 CENSUS: BOUNDS for an item that does not exist or a cluster that is not there; class S within the issuing cluster. (DEDUCED, unsafe: log 22.) -/
def execCensus (d a b : BitVec 5) (s : State) : Result :=
  .next (kernelOnly (.census d a b) s (
    let av := s.reg a
    let bv := s.reg b
    match censusItem s (field bv 0 8) av with
    | none => s.trap cBOUNDS 0 bv
    | some v =>
      if clusterItem (field bv 0 8) && !(decide (field av 31 3 < 6) && decide (field av 24 7 < 96)) then s.trap cBOUNDS 0 av
      else
        let own := !clusterItem (field bv 0 8) || field av 31 3 * 96 + field av 24 7 == s.cur
        let s1 := if decide (0x10 ≤ field bv 0 8) && (s.placeOf (namePLID av)).isNone then s.draw else s
        s1.result d v (if own then 1 else 12)))

end Sys2Proof.Machine
end

