-- ==== Sys2Proof/Machine/Socket.lean ====
section
/-! DEFINITION. The device commands of the guest engine socket (R430). -/

namespace Sys2Proof.Machine

/-- Change a guest context. -/
def updGuestCtx (s : State) (c : Nat) (f : GuestCtx → GuestCtx) : State :=
  s.updGuest (fun g => { g with ctxs := Tab.set g.ctxs c (f (Tab.getD g.ctxs c guestCtxReset)) })

/-- A message to the guest die. -/
def toGuest (s : State) (m : GuestMsg) : State := s.updGuest (fun g => { g with out := g.out ++ [m] })

/-- R430: a guest context has a command under way. -/
def guestBusy (g : GuestCtx) : Bool := g.cst == .pausing || g.cst == .saving || g.cst == .restoring

/-- R430, R434: a command allowed in state `allowed`, which moves the context to `next`; a command in any other state does nothing and sets LRES to 0, and one that is
allowed, at a port that is not ACTIVE, ends with LRES 2. (DEDUCED, unsafe: log 104.) -/
def guestCommand (s : State) (c : Nat) (allowed next : GuestCst) (region : Word) (m : GuestMsg) : State :=
  let g := guestCtxOf s c
  if g.cst ≠ allowed then updGuestCtx s c (fun k => { k with lres := 0 })
  else if s.guest.st != .active then updGuestCtx s c (fun k => { k with lres := 2 })
  else toGuest (updGuestCtx s c (fun k => { k with cst := next, lres := 0, region := region })) m

/-- R430 PAUSE. -/
def guestPauseOp (s : State) (c : Nat) : State := guestCommand s c .run .pausing 0 (.pause c)

/-- R430 RESUME. -/
def guestResumeOp (s : State) (c : Nat) : State := guestCommand s c .paused .run 0 (.resume c)

/-- R430: the guest contexts bound to a placement. -/
def boundTo (s : State) (p : Nat) : List Nat := (s.guest.ctxs.filter (fun c => c.2.v && c.2.plid == p)).map (·.1)

/-- R430: a priority of 0 pauses the guest contexts of a placement; the next other one, `was` being the priority before, resumes those whose port is ACTIVE. -/
def guestPrio (s : State) (p : Nat) (was : Option Nat) (v : Nat) : State :=
  if v = 0 then (boundTo s p).foldl guestPauseOp s
  else if was = some 0 ∧ s.guest.st = .active then (boundTo s p).foldl guestResumeOp s
  else s

end Sys2Proof.Machine
end

