-- ==== Sys2Proof/Machine/Faults.lean ====
section
/-! DEFINITION. The fault queue (R324 to R327), the handler's instructions of group 0x32 (R328, R329, R338, R341 to R347), and the landing of a priority. -/

namespace Sys2Proof.Machine

/-! Fault records (R324, R326) -/

/-- R324: the 64 bytes of a record with its sequence number. -/
def recordBytes (r : Record) (seq : Word) : List Byte :=
  leBytes 8 r.hdra.toNat ++ leBytes 8 r.hdrb.toNat ++ leBytes 8 r.paya.toNat ++ leBytes 8 r.payb.toNat ++ leBytes 8 r.fval.toNat
    ++ leBytes 8 seq.toNat ++ leBytes 2 r.elem ++ leBytes 1 r.cs ++ leBytes 1 r.opc ++ leBytes 1 r.code ++ leBytes 1 r.kind
    ++ leBytes 2 r.win ++ leBytes 4 r.frm ++ leBytes 4 r.aux

/-- R327, R329: the pending faults of a cluster's directory: those written and not settled. -/
def pendingCount (k : Cluster) : Nat := k.dir.countP (fun p => p.fseq.isSome && p.settle.isNone)

/-- R330: a FIRING record whose fault has left the directory. -/
def recordGone (k : Cluster) (r : Record) : Bool := r.fault.any (fun id => !k.dir.any (fun p => p.id == id))

/-- R327: a FIRING record that finds no room in the directory. -/
def recordWaits (k : Cluster) (r : Record) : Bool := r.fault.isSome && !recordGone k r && decide (1024 ≤ pendingCount k)

/-- R326, R327: the next record that a cluster's queue takes: the oldest, those left out that wait for room in the directory and those of an element behind one
of that element that waits. -/
def nextRecord (k : Cluster) : List Record → List Nat → Option Record
  | [], _ => none
  | r :: rest, held =>
    if recordWaits k r then nextRecord k rest (r.elem :: held)
    else if r.kind != 1 && r.kind != 2 && held.contains r.elem then nextRecord k rest held
    else some r

/-- R326, R327: a record that waits for a cluster can be written: the queue has room, and for a FIRING record the directory. -/
def recordWritable (s : State) (c : Nat) : Bool :=
  let q := s.seqOf c
  let k := s.clusterOf c
  (nextRecord k k.recq []).isSome && (field q.fqtail 0 10 + 1) % 1024 != field q.fqhead 0 10

/-- R326 FAULT_RECORD_WRITE: the next record that waits for cluster `c` is written in full, its fault becomes pending, and FQSEQ and FQTAIL advance; a record of a
class that FCLS names triggers a snapshot (R446). A FIRING record whose fault a GEN bump has removed is discarded. -/
def execFaultRecordWrite (s : State) : Result :=
  onUnit (okC s.arg.c) (
    let c := s.arg.c
    let k0 := s.clusterOf c
    match nextRecord k0 k0.recq [] with
    | none => s
    | some r =>
      let rest := eraseFirst (· == r) k0.recq
      if recordGone k0 r then s.updCluster c (fun k => { k with recq := rest })
      else if !recordWritable s c then s
      else
        let q := s.seqOf c
        let seq := q.fqseq
        let base := faultQueueBase s c + 64 * field q.fqtail 0 10
        let s1 := s.updCluster c (fun k => { k with
          recq := rest
          com := memWrite k.com base (recordBytes r seq)
          comErr := coverErr k.comErr 8 base 64
          dir := k.dir.map (fun p => if r.fault = some p.id then { p with fseq := some seq } else p) })
        let s2 : State := s1.setSeq c { q with fqseq := seq + 1, fqtail := word (field (seq + 1) 0 10) }
        if decide (1 ≤ r.code ∧ r.code ≤ 31) && s2.dev.fcls.testBit (r.code - 1) then s2.due .snapshotTrigger else s2)

/-! Settling pending faults (R329) -/

/-- R329: the pending fault of a cluster's directory that SEQ names. -/
def pendingOf (s : State) (c : Nat) (seq : Nat) : Option Pending :=
  (s.clusterOf c).dir.find? (fun p => p.settle.isNone && (match p.fseq with
    | some q => q.toNat % 2 ^ 62 == seq
    | none => false))

/-- The context that a fault stands in, if it is live. -/
def faultHome (s : State) (p : Pending) : Option (Nat × Nat) :=
  match holderOf s p.plid p.vp p.el with
  | some (e, x) => if (s.ctxOf e x).st = .live then some (e, x) else none
  | none => none

/-- The operands of a fault in its matching store. -/
def faultEntry (id : Nat) (m : MsEntry) : Bool := m.st == .fault id false || m.st == .fault id true

/-- R329: the firing of a fault as the tag action sees it. -/
def faultFire (s : State) (p : Pending) (e x : Nat) : Fire :=
  let c := s.ctxOf e x
  let w := vget c.words p.k vacant
  { e := e, x := x, k := p.k, el := s.elemOf e, c := c, w := w, a := plainOperand 0, b := plainOperand p.bval, scales := [], tag := p.tag,
    cfg := vget c.attr (wATR w) 0, sw := vget c.sw p.k 0 }

/-- R144, R150, R288, R423: the operators that pass operand A on to D0; MERGE passes the one that it takes. -/
def passesOn (opc : Nat) : Bool :=
  [0x00, 0x01, 0x02, 0x03, 0x07, 0x08, 0x0A, 0x0D, 0x10, 0x11, 0x50, 0x51, 0x56, 0x57, 0x58, 0x59, 0x5A].contains opc

/-- R329: the D0 result of a fault's slot is a tile, made by its operator or passed on. -/
def tileFault (s : State) (p : Pending) (e x : Nat) : Bool :=
  let F := faultFire s p e x
  let opc := wOPC F.w
  tileResult opc F.cfg false
    || (passesOn opc && F.c.ms.any (fun m => (m.st == .fault p.id false || (opc == 0x01 && m.st == .fault p.id true)) && m.tok.kind == .tile))

/-- R157, R329: the slot-state word once a counter's start token is consumed. -/
def settledState (F : Fire) : Option Word := if heldOp (wOPC F.w) then some (word (at' (field F.sw 32 31) 32)) else none

/-- R329: a settlement is recorded in the directory. -/
def recordSettle (s : State) (c id : Nat) (v : List Emit × Option Word) : State :=
  s.updCluster c (fun k => { k with dir := k.dir.map (fun p => if p.id = id then { p with settle := some v } else p) })

/-- R329: an operation on a pending fault of cluster `c`. -/
def onFault (s : State) (c : Nat) (a : Word) (emitOk : Bool) (k : Pending → Nat → Nat → OpResult) : OpResult :=
  if !emitOk && field a 62 2 != 0 then .status s stBADARG
  else
    match pendingOf s c (field a 0 62) with
    | none => .status s stNOFAULT
    | some p =>
      match faultHome s p with
      | none => .status s stBADSTATE
      | some (e, x) => k p e x

/-- R329 FRES: the results that the handler gives for the firing. -/
def opFres (s : State) (c : Nat) (a vb vc : Word) : OpResult :=
  onFault s c a true (fun p e x =>
    if tileFault s p e x then .status s stNOTILE
    else
      let F := faultFire s p e x
      let one (on : Bool) (d : Nat) (v : Word) : List Emit := if on && decide (d < 14) then F.put d (F.tok .data v) else []
      let self (on : Bool) (d : Nat) (v : Word) : Option Word := if on && d == 14 then some v else none
      let sw := match self (bit a 62) F.d1 vc with
        | some v => some v
        | none => match self (bit a 63) F.d0 vb with
            | some v => some v
            | none => settledState F
      .status (recordSettle s c p.id (one (bit a 63) F.d0 vb ++ one (bit a 62) F.d1 vc, sw)) stOK)

/-- R329 FDISC: the operands go, nothing is emitted. -/
def opFdisc (s : State) (c : Nat) (a : Word) : OpResult :=
  onFault s c a false (fun p e x => .status (recordSettle s c p.id ([], settledState (faultFire s p e x))) stOK)

/-- R329 FRETRY: the operands are unconsumed tokens again, in their original arrival order. -/
def opFretry (s : State) (c : Nat) (a : Word) : OpResult :=
  onFault s c a false (fun p e x =>
    let s1 := s.updCluster c (fun k => { k with dir := k.dir.filter (fun q => q.id != p.id) })
    let s2 := s1.updCtx e x (fun y => { y with ms := y.ms.map (fun m => if faultEntry p.id m then { m with st := .idle } else m) })
    .status (touch s2 (clusterOfElem e) p.plid p.frame (BitVec.ofNat 2 p.gen)) stOK)

/-- R329 FRES. -/
def execFres (d a b c : BitVec 5) (s : State) : Result :=
  .next (kernelOnly (.fres d a b c) s (seqOp d (opFres s s.cur (s.reg a) (s.reg b) (s.reg c))))
/-- R329 FDISC. -/
def execFdisc (d a : BitVec 5) (s : State) : Result := .next (kernelOnly (.fdisc d a) s (seqOp d (opFdisc s s.cur (s.reg a))))
/-- R329 FRETRY. -/
def execFretry (d a : BitVec 5) (s : State) : Result := .next (kernelOnly (.fretry d a) s (seqOp d (opFretry s s.cur (s.reg a))))

/-! Priority (R338) -/

/-- R338, R430: every live context of a placement is to land a priority, and its guest contexts pause or go on. (DEDUCED, safe: log 61.) -/
def sendPrio (s : State) (p v : Nat) : State :=
  let s1 : State := s.updPlace p (fun pl => { pl with prio := some v })
  guestPrio { s1 with elems := s1.elems.map (fun e => (e.1, { e.2 with ctx := e.2.ctx.map (fun c =>
      if c.plid = p ∧ c.st ≠ .free then { c with newPrio := some v } else c) })) } p ((s.placeOf p).bind (·.prio)) v

/-- R338, R430: a context still has to land a priority, or a guest context to pause. -/
def prioDue (s : State) (p : Nat) : Bool :=
  s.elems.any (fun e => e.2.ctx.toList.any (fun c => c.st == .live && c.plid == p && c.newPrio.isSome))
    || ((s.placeOf p).any (fun pl => pl.prio == some 0) && (boundTo s p).any (fun c => guestBusy (guestCtxOf s c)))

/-- R338 CPRIO. -/
def opCprio (s : State) (d : Nat) (a b : Word) : OpResult :=
  if field a 14 50 != 0 || field b 3 61 != 0 then .status s stBADARG
  else if (s.placeOf (namePLID a)).isNone then .status s stNOPLID
  else
    let t := sendPrio s (namePLID a) (field b 0 3)
    if prioDue t (namePLID a) then .wait t (.prio d (namePLID a)) else .status t stOK

/-- R338 CPRIO. -/
def execCprio (d a b : BitVec 5) (s : State) : Result :=
  .next (kernelOnly (.cprio d a b) s (seqOp d (opCprio s d.toNat (s.reg a) (s.reg b))))

/-- R338: a priority lands at a context: the arbiter's next choice uses it. -/
def landPrio (s : State) (e x : Nat) : State :=
  s.updCtx e x (fun c => match c.newPrio with
    | some v => { c with ccw := setField c.ccw 0 3 v, newPrio := none }
    | none => c)

/-! The image of a context (R342, R343) -/

/-- The occupied tile slots of a context, its standing slots among them, in rising order. -/
def savedSlots (el : Elem) (x : Nat) (c : Ctx) : List Nat :=
  (List.range (pTSG c.part)).filter (fun t => decide (t < c.standing) || (usedSlots el x c).contains t)

/-- An entry of a context image: its token, INFO and FSEQ, and what the package keeps of it beside the image. -/
structure ImageEntry where
  tok : Tok
  place : Nat
  route : Nat
  order : Nat
  fseq : Word
  net : Bool
  deriving DecidableEq, Repr

/-- The written sequence number of a fault. -/
def fseqOf (s : State) (id : Nat) : Option Word :=
  s.clusters.findSome? (fun k => (k.2.dir.find? (fun p => p.id == id)).bind (·.fseq))

/-- R342: the entries of a context image: the matching store in arrival order, then the outgoing FIFOs in FIFO order. (DEDUCED, unsafe: log 70.) -/
def imageEntries (s : State) (c : Ctx) : List ImageEntry :=
  let ms := byOrd c.ms
  let a := (List.zip (List.range ms.length) ms).map (fun p =>
    let f := match p.2.st with
      | .fault id _ => fseqOf s id
      | _ => none
    ({ tok := p.2.tok, place := if f.isSome then 2 else 0, route := 0, order := p.1, fseq := f.getD 0, net := p.2.net } : ImageEntry))
  let b := (List.range 14).flatMap (fun r =>
    let q := vget c.fifo r []
    (List.zip (List.range q.length) q).map (fun p =>
      let t := match p.2.slotRef with
        | some n => { p.2 with payload := setField p.2.payload 40 8 n }
        | none => p.2
      ({ tok := t, place := 1, route := r, order := p.1, fseq := 0, net := false } : ImageEntry)))
  a ++ b

/-- R343: the size of a context image. -/
def ctxImageSize (s : State) (e x : Nat) : Nat :=
  let c := s.ctxOf e x
  512 + 32 * (imageEntries s c).length
    + 4096 * ((savedSlots (s.elemOf e) x c).length + pACG c.part + pWBG c.part + pSPG c.part)

/-- R342: the bytes of a context image. (DEDUCED, unsafe: log 23.) -/
def ctxImage (s : State) (e x : Nat) : List Byte :=
  let c := s.ctxOf e x
  let es := imageEntries s c
  let slots := savedSlots (s.elemOf e) x c
  let rest := pACG c.part + pWBG c.part + pSPG c.part
  c.words.toList.flatMap (fun w => leBytes 4 w.toNat) ++ bytesOfWords c.attr.toList ++ bytesOfWords c.sw.toList
    ++ bytesOfWords c.routes.toList ++ leBytes 8 c.ccw.toNat ++ leBytes 8 c.part.toNat
    ++ leBytes 8 (c.plid + at' c.vp 14 + at' c.el 26) ++ leBytes 8 (es.length + at' (slots.length + rest) 32)
    ++ leBytes 16 ((slots.map (fun t => 2 ^ t)).sum) ++ leBytes 8 c.spillcnt.toNat ++ leBytes 8 c.throtcnt.toNat ++ leBytes 16 0
    ++ es.flatMap (fun n => leBytes 8 (n.tok.header x).toNat ++ leBytes 8 n.tok.payload.toNat
        ++ leBytes 8 (at' n.place 62 + at' n.route 58 + n.order) ++ leBytes 8 n.fseq.toNat)
    ++ slots.flatMap (fun t => memRead c.pool (slotOff c t) 4096) ++ memRead c.pool ((pMSG c.part + pTSG c.part) * 4096) (rest * 4096)

/-! CSAVE (R341) -/

/-- The plot-context of a virtual plot. -/
def plotContext (pl : Placement) (v : Nat) : Option (Nat × Nat) := pl.map.getD v none

/-- R341 step 1: a save begins. -/
def startSave (s : State) (p v : Nat) (who : Option Nat) (pc : Nat × Nat) : State :=
  setPlotState (s.updPlace p (fun pl => { pl with saving := pl.saving ++ [(v, who)] })) pc .draining

/-- R346: a staged token or marker enters a live context; one that finds no room waits there. -/
def restoreStaged (s : State) (e x p chan : Nat) (net : Bool) (t : Tok) : State :=
  if t.kind == .mark then markArrives s e x t.frame.toNat t.payload.toNat chan
  else if !(s.ctxOf e x).waitIn.isEmpty then s.updCtx e x (fun c => { c with waitIn := c.waitIn ++ [(net, t)] })
  else
    match arrive (channelToken s e x chan net t) e x p chanDirect net t with
    | .taken s1 => s1
    | .refused s1 => s1.updCtx e x (fun c => { c with waitIn := c.waitIn ++ [(net, t)] })

/-- R346: what was staged for virtual plot `v`, which is live at `pc`, enters its contexts in the order in which it was staged. -/
def enterStaged (s : State) (p v : Nat) (pc : Nat × Nat) : State :=
  match s.placeOf p with
  | none => s
  | some pl =>
    let mine := pl.stagedIn.filter (fun t => t.vp == v)
    let s1 : State := s.updPlace p (fun q => { q with stagedIn := q.stagedIn.filter (fun t => t.vp != v) })
    mine.foldl (fun (st : State) (t : StagedIn) =>
      left (restoreStaged st (4 * pc.1 + t.el) pc.2 p t.chan t.net t.tok) t.cl p t.tok.frame.toNat t.tok.gen) s1

/-- R341 steps 2 and 3, R349: a save ends without an image: the contexts resume, and what was staged meanwhile enters them. -/
def abandonSave (s : State) (p v : Nat) (pc : Nat × Nat) : State :=
  enterStaged (setPlotState (s.updPlace p (fun pl => { pl with saving := pl.saving.filter (fun w => w.1 != v) })) pc .live) p v pc

/-- A draining plot-context has nothing left that goes on. -/
def saveReady (s : State) (pc : Nat × Nat) : Bool :=
  plotDrained s pc && (List.range 4).all (fun e => (s.ctxOf (4 * pc.1 + e) pc.2).spillKills.isEmpty)

/-- R341 step 2: the unwritten FIRING records of a virtual plot's contexts, by the cluster that is to write them. -/
def unwritten (s : State) (p v : Nat) : List Nat :=
  (s.clusters.filter (fun k => k.2.dir.any (fun q => q.plid == p && q.vp == v && q.fseq.isNone))).map (·.1)

/-- What a save that has drained gives. -/
inductive SaveEnd where
  | ok (s : State) (size : Nat)
  | noRoom (s : State) (size : Nat)
  | busy (s : State)
  | later (s : State)
  deriving DecidableEq, Repr

/-- R341, R346: tokens of a plot-context that wait for room at their port are no tokens of its matching stores: they are staged for its virtual plot again, ahead of what
has been staged since. (DESIGN CHOICE, unsafe: log 141.) -/
def stageWaiting (s : State) (v : Nat) (pc : Nat × Nat) : List StagedIn :=
  (List.range 4).flatMap (fun e => (s.ctxOf (4 * pc.1 + e) pc.2).waitIn.map (fun w =>
    ({ vp := v, el := e, chan := chanDirect, cl := pc.1 / 4, tok := w.2, net := w.1 } : StagedIn)))

/-- R366: the holder is an append of a plot-context: of a checkpoint of one of its contexts, or of a guest packet of one. -/
def holderOfPlot (pc : Nat × Nat) (h : Holder) : Bool :=
  h.loc / 4 == pc.1 && ((h.kind == 2 && h.num == pc.2) || (h.kind == 3 && h.num / 16 == pc.2))

/-- R341 step 4: the four context images are written, the tokens enter the image's custody, and the slots become FREE. -/
def writeSave (s : State) (p v : Nat) (pc : Nat × Nat) (addr : Nat) (evicted : Option Nat) : State :=
  let els := List.range 4
  let bytes := els.flatMap (fun e => ctxImage s (4 * pc.1 + e) pc.2)
  let toks := els.flatMap (fun e => (imageEntries s (s.ctxOf (4 * pc.1 + e) pc.2)).map (fun n =>
    ({ frame := n.tok.frame.toNat, gen := n.tok.gen.toNat, cust := n.tok.cust, dropped := false, net := n.net, cmd := n.tok.cmd } : SavedTok)))
  let ctxs := els.map (fun e =>
    let c := s.ctxOf (4 * pc.1 + e) pc.2
    ({ evcl := c.evcl, qexp := ccwQEXP c.ccw, throttled := c.throttled, wins := c.wins, budget := c.budget, stepped := c.stepped, paused := c.paused, pauseReq := c.pauseReq, stagings := c.stagings,
       marksIn := c.marksIn } : SavedCtx))
  let prio := (els.map (fun e => ccwPRIO (s.ctxOf (4 * pc.1 + e) pc.2).ccw)).foldl max 0
  let rec' : Saved := {
    vp := v, cl := pc.1 / 4, addr := addr, size := bytes.length, toks := toks, ctxs := ctxs
    evicted := evicted.map (fun n => (n, s.releases + 1)), prioAt := prio, filling := none }
  let s1 : State := writeHbmLines (bytes.length + 1) s (tkeyOf s p) addr bytes
  let s2 : State := freePlotContext s1 pc
  let s3 : State := s2.updPlace p (fun pl => { pl with
    map := setAt pl.map v none, saved := pl.saved ++ [rec'], saving := pl.saving.filter (fun w => w.1 != v), stagedIn := stageWaiting s v pc ++ pl.stagedIn
    frames := pl.frames.map (fun f => (f.1, { f.2 with log := { f.2.log with waiting := f.2.log.waiting.filter (fun h => !holderOfPlot pc h) } })) })
  let fs := toks.map (fun t => t.cust.getD (t.frame, t.gen))
  let s4 : State := fs.foldl (fun (st : State) (t : Nat × Nat) => touch st (pc.1 / 4) p t.1 (BitVec.ofNat 2 t.2)) s3
  unstall { s4 with releases := s4.releases + 1 }

/-- R341 steps 2 to 5, for a plot-context that has drained. -/
def finishSave (s : State) (p v : Nat) (pc : Nat × Nat) (addr room : Nat) (evicted : Option Nat) : SaveEnd :=
  let s1 := (List.range 4).foldl (fun st e => discardEntries st (4 * pc.1 + e) pc.2) s
  let owed := unwritten s1 p v
  if owed.any (fun c => recordWritable s1 c) then .later s1
  else if !owed.isEmpty then .busy (abandonSave s1 p v pc)
  else
    let size := ((List.range 4).map (fun e => ctxImageSize s1 (4 * pc.1 + e) pc.2)).sum
    if room < size then .noRoom (abandonSave s1 p v pc) size
    else
      match copyIn s1 addr size with
      | some line => .later (recallLine s1 line)
      | none => .ok (writeSave s1 p v pc addr evicted) size

/-- A physical range of local HBM. -/
def hbmRange (s : State) (a n : Nat) : Bool :=
  decide (a + n ≤ 2 ^ 44) && (n == 0 || (hbmPresent s a && hbmPresent s (a + n - 1) && a / 2 ^ 40 == (a + n - 1) / 2 ^ 40))

/-- R341 CSAVE for cluster `c`. (DEDUCED, unsafe: log 69.) -/
def opCsave (s : State) (c : Nat) (a b vc : Word) : OpResult :=
  let p := namePLID a
  let v := field a 14 12
  match s.placeOf p with
  | none => .status s stNOPLID
  | some pl =>
    if field a 26 38 != 0 || decide (pl.n ≤ v) || b.toNat % 64 != 0 || !hbmRange s b.toNat vc.toNat then .status s stBADARG
    else
      match plotContext pl v with
      | none => .status s stBADSTATE
      | some pc =>
        if pl.saving.contains (v, some c) then
          (if !saveReady s pc then .wait s .again
          else
            match finishSave s p v pc b.toNat vc.toNat none with
            | .ok t n => .done t (statusWord stOK 0 n)
            | .noRoom t n => .done t (statusWord stNOROOM 0 n)
            | .busy t => .status t stBUSY
            | .later t => .wait t .again)
        else if pl.moving.isSome || pl.root.isNone then .status s stBADSTATE
        else if pl.saving.any (fun w => w.1 == v) || pl.frames.any (fun f => f.2.st == .rolling)
            || (s.ctxOf (4 * pc.1) pc.2).st == .filling then .wait s .again
        else .wait (startSave s p v (some c) pc) .again

/-- R341 CSAVE. -/
def execCsave (d a b c : BitVec 5) (s : State) : Result :=
  .next (kernelOnly (.csave d a b c) s (seqOp d (opCsave s s.cur (s.reg a) (s.reg b) (s.reg c))))

/-! CRSTR (R344) -/

/-- What reading a saved image gives. -/
inductive Restore where
  | bytes (bs : List (List Byte))
  | trap (line : Nat)
  | bad
  deriving DecidableEq, Repr

/-- Bytes of local HBM under a key, line by line; the first line that fails its check. -/
def readKeyed (s : State) (key a n : Nat) : Except Nat (List Byte) :=
  match firstBad s key a n with
  | some x => .error (x / 128 * 128)
  | none => .ok (memRead s.hbm a n)

/-- R342: NENT, NGRAN and TSOCC of a context image's first 512 bytes. -/
def ciNENT (h : List Byte) : Nat := leAt h 456 4
def ciNGRAN (h : List Byte) : Nat := leAt h 460 2
def ciTSOCC (h : List Byte) : Nat := leAt h 464 16

/-- The saved tile slots of a context image. -/
def ciSlots (h : List Byte) : List Nat := (List.range 128).filter (fun t => (ciTSOCC h).testBit t)

/-- R113, R118: the record that the words of a context image make, for the checks of GLOAD. -/
def ciRecord (h : List Byte) (standing : Nat) : List Byte := h.take 448 ++ leBytes 8 (at' standing 32) ++ List.replicate 56 0

/-- R112, R342: a route of a context image as placed is one that the placement's image gave. -/
def ciRouteOk (pl : Placement) (ve r : Nat) (w : Word) : Bool :=
  match pl.edges.find? (fun d => d.src == ve && d.r == r) with
  | none => w == 0
  | some d => onlyBits w 0xF000FFFFFFF00000#64 && rtV w && rtTGT w == d.tgt && rtELEM w == d.dst % 4 && rtPORT w == d.port
      && (if d.tgt = 1 then !rtNET w && rtCTX w == 0 && decide (rtEPN w ≤ 1) else rtEPN w == 0 && (!rtNET w || decide (rtPORT w ≤ 1)))

/-- R9, R113: the words of a context image pass the checks of the rules that own them. -/
def ciWordsOk (pl : Placement) (v el : Nat) (h : List Byte) : Bool :=
  let r := ciRecord h (pl.tsinit.getD (4 * v + el) 0)
  (List.range 16).all (fun k => (slotFault r k).isNone && !attrFault r k) && !colourFault r
    && (List.range 14).all (fun k => ciRouteOk pl (4 * v + el) k (rcRoute r k)) && ccwOk (setField (rcCcw r) 38 14 0) (rcPart r)

/-- R344, R113: IDENT, the reserved bytes and the counts of a context image agree, and its words are such as GLOAD accepts; `n` is the number of its tokens in the
image's custody. (DEDUCED, unsafe: log 115.) -/
def ciOk (pl : Placement) (p v el n : Nat) (h : List Byte) : Bool :=
  let part := pl.parts.getD (4 * v + el) 0
  leAt h 448 8 == p + at' v 14 + at' el 26 && leAt h 462 2 == 0 && leAt h 496 16 == 0 && leAt h 440 8 == part.toNat && leAt h 492 4 == 0
    && (ciSlots h).all (fun t => decide (t < pTSG part))
    && ciNGRAN h == (ciSlots h).length + pACG part + pWBG part + pSPG part && ciNENT h == n && ciWordsOk pl v el h

/-- R342: INFO of an entry has its reserved bits zero, and FSEQ is zero where it does not stand. -/
def ceOk (b : List Byte) : Bool :=
  let info := leAt b 16 8
  decide (info / 2 ^ 62 ≤ 2) && info / 2 ^ 32 % 2 ^ 26 == 0 && decide (info / 2 ^ 58 % 16 ≤ 13) && (info / 2 ^ 62 == 2 || leAt b 24 8 == 0)

/-- R344: the context images from address `a` on, each checked; `ns` gives the tokens that each holds. -/
def readImages (s : State) (pl : Placement) (p v key : Nat) : List Nat → Nat → Nat → Restore
  | [], _, _ => .bytes []
  | n :: ns, el, a =>
    if !hbmRange s a 512 then .bad
    else
      match readKeyed s key a 512 with
      | .error l => .trap l
      | .ok h =>
        if !ciOk pl p v el n h then .bad
        else
          let size := 512 + 32 * ciNENT h + 4096 * ciNGRAN h
          if !hbmRange s a size then .bad
          else
            match readKeyed s key a size with
            | .error l => .trap l
            | .ok bs =>
              if !((List.range n).all (fun i => ceOk ((bs.drop (512 + 32 * i)).take 32))) then .bad
              else
                match readImages s pl p v key ns (el + 1) (a + size) with
                | .bytes more => .bytes (bs :: more)
                | r => r

/-- The numbers of tokens of the four context images of a saved plot, by the sizes in its images. -/
def tokCounts (s : State) (key : Nat) : Nat → Nat → List Nat
  | 0, _ => []
  | k + 1, a =>
    match readKeyed s key a 512 with
    | .error _ => 0 :: tokCounts s key k a
    | .ok h => ciNENT h :: tokCounts s key k (a + 512 + 32 * ciNENT h + 4096 * ciNGRAN h)

/-- R344, R84, R85: the plot-context for a restore: the named one where it fits, else the PA's choice, the placement's die first. -/
def restoreAt (s : State) (pl : Placement) (v : Nat) (named : Option (Nat × Nat)) : Option (Nat × Nat) :=
  let used := pl.map.filterMap (fun m => m.map (·.1)) ++ pl.saved.filterMap (fun w => w.filling.map (fun c => c.1.1))
  match named with
  | some pc => if decide (pc.1 < 2304) && !used.contains pc.1 && fits s pl.parts pl.guestPlots v pc then some pc else none
  | none =>
    let home := match used with
      | p :: _ => diePlots (p / 384)
      | [] => []
    match firstFit s pl.parts pl.guestPlots v used home with
    | some pc => some pc
    | none => firstFit s pl.parts pl.guestPlots v used (List.range 2304)

/-- R342: the context that an image holds, before its tokens: `keep` is what the package kept beside it. -/
def restoredCtx (s : State) (pl : Placement) (p v el : Nat) (bs : List Byte) (keep : SavedCtx) : Ctx :=
  let ents := 512 + 32 * ciNENT bs
  let slots := ciSlots bs
  let part : Word := word (leAt bs 440 8)
  let tiles : Memory := (List.zip (List.range slots.length) slots).foldl (fun (m : Memory) (q : Nat × Nat) =>
    memWrite m ((pMSG part + q.2) * 4096) ((bs.drop (ents + 4096 * q.1)).take 4096)) []
  let ccw : Word := setField (word (leAt bs 432 8)) 38 14 p
  { ctxFree with
    st := .live, plid := p, vp := v, el := el
    words := Vector.ofFn (fun k : Fin 16 => rcWord bs k.val)
    attr := Vector.ofFn (fun k : Fin 16 => rcAttr bs k.val)
    sw := Vector.ofFn (fun k : Fin 16 => rcState bs k.val)
    routes := Vector.ofFn (fun k : Fin 14 => rcRoute bs k.val)
    ccw := match pl.prio with
      | some n => setField ccw 0 3 n
      | none => ccw
    part := part, standing := pl.tsinit.getD (4 * v + el) 0
    pool := memWrite tiles ((pMSG part + pTSG part) * 4096) (bs.drop (ents + 4096 * slots.length))
    spillcnt := word (leAt bs 480 8), throtcnt := BitVec.ofNat 32 (leAt bs 488 4), throttled := keep.throttled, evcl := keep.evcl, wins := keep.wins
    budget := keep.budget.filter (fun b => (s.frameOf p b.1).paused), stepped := keep.stepped
    paused := (pl.frames.filter (fun (f : Nat × Frame) => f.2.paused)).map (fun f => f.1)
    stagings := keep.stagings.filter (fun z => (s.frameOf p z.frame).log.cut == some (z.w - 1)), marksIn := keep.marksIn }

/-- R344 steps 6 and 7: one entry of an image returns: dropped where it is stale, else to the matching store, its FIFO or the directory. -/
def restoreEntry (s : State) (e x p : Nat) (b : List Byte) (h : SavedTok) : State :=
  if h.dropped then s
  else
    let info := leAt b 16 8
    let c := s.ctxOf e x
    let t0 := { (tokOfHeader (word (leAt b 0 8)) (word (leAt b 8 8))) with cmd := h.cmd }
    let slot := if t0.kind == .tile then some (dTSLOT t0.payload) else none
    let t1 := match slot with
      | some n => { t0 with tile := some (memRead c.pool (slotOff c n) (shapeBytes (dFMT t0.payload) (dRows t0.payload) (dCols t0.payload))) }
      | none => t0
    let cl := clusterOfElem e
    if staleTok s cl p t1 then staleDrop s cl p t1
    else if info / 2 ^ 62 = 1 then
      let r := info / 2 ^ 58 % 16
      touch (s.setCtx e x { c with fifo := vset c.fifo r (vget c.fifo r [] ++ [{ t1 with slotRef := slot, cust := h.cust }]) })
        cl p t1.frame.toNat t1.gen
    else
      let el := s.elemOf e
      let id := if info / 2 ^ 62 = 2 then
          s.clusters.findSome? (fun k => (k.2.dir.find? (fun q => q.plid == p && q.vp == c.vp && q.el == c.el
            && q.fseq == some (word (leAt b 24 8)))).map (fun q => (q.id, q.k)))
        else none
      let st : EntSt := match id with
        | some (n, k) => .fault n !(!h.net && wSA (vget c.words k vacant) == t1.port.toNat)
        | none => .idle
      let m : MsEntry := { tok := t1, slot := slot, net := h.net, ord := el.nextOrd, st := st }
      touch ((s.setElem e { el with nextOrd := el.nextOrd + 1 }).setCtx e x { c with ms := c.ms ++ [m] }) cl p t1.frame.toNat t1.gen

/-- R344 step 1, R349: the restore of a saved plot begins: its granules at `pc` are taken, and its state is being written from the images read. -/
def beginRestore (s : State) (p : Nat) (pl : Placement) (v : Saved) (pc : Nat × Nat) (images : List (List Byte)) : State :=
  (takeGranules s p v.vp pl.parts pc).updPlace p (fun q => { q with
    saved := q.saved.map (fun w => if w.vp = v.vp then { w with filling := some (pc, images) } else w) })

/-- R344 steps 1 to 8: the state of a saved plot has been written at `pc`: it stands there again. -/
def restorePlot (s : State) (p : Nat) (v : Saved) (pc : Nat × Nat) (images : List (List Byte)) : State :=
  match s.placeOf p with
  | none => s
  | some pl =>
    let els := List.zip (List.range 4) images
    let s1 : State := els.foldl (fun (st : State) (q : Nat × List Byte) =>
      let k := restoredCtx s pl p v.vp q.1 q.2
        (v.ctxs.getD q.1 { evcl := pc.1 / 4, qexp := 0, throttled := false, wins := [], budget := [], stepped := [], paused := [], pauseReq := [], stagings := [], marksIn := [] })
      st.setCtx (4 * pc.1 + q.1) pc.2 { k with budget := withBudgets k (st.ctxOf (4 * pc.1 + q.1) pc.2) }) s
    let s2 : State := s1.updPlace p (fun q => { q with
      map := setAt q.map v.vp (some pc), saved := q.saved.filter (fun w => w.vp != v.vp) })
    let s3 : State := grantPages (rewriteRoutes s2 p) p (pc.1 / 4)
    let r : State × List SavedTok := els.foldl (fun (r : State × List SavedTok) (q : Nat × List Byte) =>
      let n := ciNENT q.2
      ((List.zip (List.range n) (r.2.take n)).foldl (fun (st : State) (h : Nat × SavedTok) =>
        restoreEntry st (4 * pc.1 + q.1) pc.2 p ((q.2.drop (512 + 32 * h.1)).take 32) h.2) r.1, r.2.drop n)) (s3, v.toks)
    let fs := (v.toks.filter (fun h => !h.dropped)).map (fun h => h.cust.getD (h.frame, h.gen))
    let s4 : State := fs.eraseDups.foldl (fun (st : State) (f : Nat × Nat) => left st v.cl p f.1 (BitVec.ofNat 2 f.2)) r.1
    (List.range 4).foldl (fun st e => throttle st (4 * pc.1 + e) pc.2) (enterStaged s4 p v.vp pc)

/-- R349: the writing of context slot `x` of element `e` ends: the slot is LIVE, with the rest of its plot where that is restored; the slots of a plot that moves wait for the
copy (R87). -/
def fillEnds (s : State) (e x : Nat) : State :=
  let c := s.ctxOf e x
  match s.placeOf c.plid with
  | none => s
  | some pl =>
    if c.st != .filling || pl.moving == some c.vp then s
    else
      match pl.saved.find? (fun w => w.vp == c.vp) with
      | some w =>
        match w.filling with
        | some (pc, images) => restorePlot s c.plid w pc images
        | none => s
      | none => s.setCtx e x { c with st := .live }

/-- What a restore gives. -/
inductive RestoreEnd where
  | ok (s : State)
  | noPlace
  | bad
  | trap (line : Nat)
  deriving DecidableEq, Repr

/-- R344: the image of a saved plot is read and checked, a plot-context is found, and the restore begins. -/
def tryRestore (s : State) (p : Nat) (pl : Placement) (v : Saved) (addr : Nat) (named : Option (Nat × Nat)) : RestoreEnd :=
  let key := tkeyOf s p
  let counts := tokCounts s key 4 addr
  match readImages s pl p v.vp key counts 0 addr with
  | .trap l => .trap l
  | .bad => .bad
  | .bytes images =>
    if counts.sum != v.toks.length then .bad
    else
      match restoreAt s pl v.vp named with
      | none => .noPlace
      | some pc => .ok (beginRestore s p pl v pc images)

/-- R344 CRSTR. -/
def execCrstr (d a b c : BitVec 5) (s : State) : Result :=
  .next (kernelOnly (.crstr d a b c) s (
    let av := s.reg a
    let bv := s.reg b
    let cv := s.reg c
    let p := namePLID av
    match s.placeOf p with
    | none => seqOp d (.status s stNOPLID)
    | some pl =>
      if field av 26 38 != 0 || field cv 14 49 != 0 || bv.toNat % 64 != 0 || !hbmRange s bv.toNat 2048 then seqOp d (.status s stBADARG)
      else
        match pl.saved.find? (fun v => v.vp == field av 14 12) with
        | none => seqOp d (.status s stBADSTATE)
        | some v =>
          if s.pa.isSome || v.filling.isSome then seqOp d (.wait s .again)
          else
            match tryRestore s p pl v bv.toNat (if bit cv 63 then none else some (field cv 2 12, field cv 0 2)) with
            | .ok t => seqOp d (.wait t (.filling d.toNat p (statusWord stOK 0 0)))
            | .noPlace => seqOp d (.status s stNOPLACE)
            | .bad => seqOp d (.status s stBADARG)
            | .trap l => (countBad s (.hbm l)).trap cINTEGRITY 0 (word l)))

end Sys2Proof.Machine
end

