-- ==== Sys2Proof/Machine/Recorder.lean ====
section
/-! DEFINITION. The recorder (R360 to R375): cuts, checkpoints and their windows, rollback, retirement, pauses and steps, and the instructions of group
0x33. -/

namespace Sys2Proof.Machine

/-! Windows -/

/-- R364, R367, R372: the cut of window `w` is complete and has not been undone; a retired window's cut still serves RWIN at FLOOR. (DEDUCED, unsafe: log 62.) -/
def windowComplete (g : Log) (w : Nat) : Bool :=
  Tab.get? g.states w == some WinSt.complete || Tab.get? g.states w == some (WinSt.retired true)

/-- R372: WMARK on a window. -/
def winMarked : Option WinSt → WinSt
  | some (.retired b) => .retired b
  | _ => .cutting

/-- R372: the cut of a window is complete. -/
def winClosed : WinSt → WinSt
  | .cutting => .complete
  | .retired _ => .retired true
  | w => w

/-- R372: WRETIRE at or above a window, or WRETIRE ALL. -/
def winRetired : WinSt → WinSt
  | .undone => .undone
  | .retired b => .retired b
  | .complete => .retired true
  | _ => .retired false

/-- R372: RWIN K below a window. -/
def winUndone : WinSt → WinSt
  | .retired b => .retired b
  | _ => .undone

/-- R370: an operation of the recorder on a named frame: NOPLID, then BADSTATE, then BADARG for a bit that no operand names. -/
def onLogged (s : State) (a : Word) (named : Bool) (k : Nat → Nat → OpResult) : OpResult :=
  let p := namePLID a
  let f := nameFRAME a
  if (s.placeOf p).isNone then .status s stNOPLID
  else if (s.frameOf p f).st == .free || (s.frameOf p f).st == .killing || (s.frameOf p f).st == .rolling then .status s stBADSTATE
  else if !named then .status s stBADARG
  else k p f

/-- A virtual plot of a placement is saved or draining (R371). -/
def plotsAway (s : State) (p : Nat) : Bool :=
  match s.placeOf p with
  | some pl => !pl.saved.isEmpty || !pl.saving.isEmpty
  | none => true

/-! WMARK (R360, R371) -/

/-- R360: where the markers of a frame go in: virtual elements and channels. -/
def markTargets (s : State) (p f : Nat) : List (Nat × Nat) :=
  match s.placeOf p with
  | none => []
  | some pl =>
    (List.range pl.entries.length).map (fun n => (entVelem (pl.entries.getD n 0), chanEntry n))
      ++ (s.rings.filter (fun r => r.2.plid == p && r.2.frame == f)).map (fun r => (entVelem (pl.entries.getD r.2.entry 0), chanRing r.1))
      ++ ((List.range (4 * pl.n)).filter (fun ve => channels s p f ve == [chanDirect])).map (fun ve => (ve, chanDirect))

/-- R70, R88, R346, R364: every marker of a cut can be injected now. -/
def markersEnter (s : State) (p f : Nat) : Bool :=
  match s.placeOf p with
  | none => false
  | some pl => (markTargets s p f).all (fun t =>
      let marked (c : Nat) : Bool := (s.clusterOf c).marked.contains (p, f, (s.frameOf p f).gen.toNat)
      match stagesAt pl (t.1 / 4) with
      | some c => !marked c
      | none => plotOpen pl (t.1 / 4) && (match holderOfVelem s p t.1 with
        | some (e, x) => !marked (clusterOfElem e) && (s.ctxOf e x).st != .filling && (s.ctxOf e x).waitIn.isEmpty
        | none => false))

/-- R360, R371, R373 WMARK, its event bit in cluster `c`. (DEDUCED, unsafe: log 63.) -/
def opWmark (s : State) (c : Nat) (a b : Word) : OpResult :=
  onLogged s a (field a 24 40 == 0 && field b 9 55 == 0) (fun p f =>
    let fr := s.frameOf p f
    let g := fr.log
    if g.mode = 0 then .status s stNOLOGMODE
    else if !(fr.st == .opened || fr.st == .running) then .status s stBADSTATE
    else if g.cut.isSome then .status s stBUSY
    else if 65535 ≤ g.win then .status s stWINMAX
    else if !markersEnter s p f then .wait s .again
    else
      let w := g.win
      let s1 : State := s.updFrame p f (fun r => { r with log := { r.log with
        win := w + 1, cut := some w, drained := [], cutEvent := if bit b 8 then some (c, field b 0 8) else none
        states := Tab.set (Tab.set r.log.states w (winMarked (Tab.get? r.log.states w))) (w + 1) .opened } })
      let s2 : State := (markTargets s1 p f).foldl (fun (st : State) (t : Nat × Nat) => (inject st p t.1 t.2 (markTok st p f (w + 1))).state) s1
      .done s2 (statusWord stOK 0 (w + 1)))

/-- R371 WMARK. -/
def execWmark (d a b : BitVec 5) (s : State) : Result :=
  .next (kernelOnly (.wmark d a b) s (seqOp d (opWmark s s.cur (s.reg a) (s.reg b))))

/-! Checkpoints (R362, R363) -/

/-- The staging of a context that is complete and not yet appended. -/
def drainable (s : State) (e x f : Nat) : Option Staging :=
  let c := s.ctxOf e x
  if (s.frameOf c.plid f).log.drained.contains c.velem then none
  else match (s.frameOf c.plid f).log.cut with
    | some w => (stagingOf c f (w + 1)).bind (fun z => if z.done then some z else none)
    | none => none

/-- A log entry with no location. -/
def plainEntry (kind win elem cs : Nat) (data : List Byte) : LogEntry :=
  { va := 0, loc := at' 2 62, win := win, iter := 0, elem := elem, cs := cs, kind := kind, undone := false, spec := 0, flen := 0, data := data }

/-- R363, R366 CHECKPOINT_DRAIN: the checkpoint of a context is appended as its WINDOW_OPEN entry, or held for want of room. -/
def execCheckpointDrain (s : State) : Result :=
  onUnit (okX s.arg.e s.arg.x) (
    let e := s.arg.e
    let x := s.arg.x
    let f := s.arg.f
    let c := s.ctxOf e x
    let p := c.plid
    match drainable s e x f with
    | none => s
    | some z =>
      let g := (s.frameOf p f).log
      let data := checkpointBytes c x z
      let who : Writer := { p := p, f := f, win := z.w, iter := 0, elem := elemField e, cs := csField x 0, spec := 0 }
      let h : Holder := { kind := 2, loc := e, num := x, va := 0 }
      if !logRoom g (entrySize data.length) then logHeld s who h (entrySize data.length) 0
      else
        match copyAmong s (ringPieces g g.tail (entrySize data.length)) with
        | some line => recallLine s line
        | none =>
        let s1 : State := appendEntry (logDrop s p f (· == h)) p f (plainEntry lgOPEN z.w (elemField e) (csField x 0) data)
        let s2 : State := s1.updFrame p f (fun r => { r with log := { r.log with
          drained := c.velem :: r.log.drained, nets := Tab.set r.log.nets g.tail (z.entries.map (fun m => m.1.net)) } })
        s2.updCtx e x (fun k => putStaging (if z.fwd.isEmpty then
            { k with stagings := k.stagings.filter (fun y => !(y.frame == f && y.w == z.w)) }
          else updStaging k f z.w (fun y => { y with sw := [], accs := [], entries := [] })) x))

/-- R234: no store of a frame that the host or the guest port has accepted has still to perform. -/
def nonePosted (s : State) (p f : Nat) : Bool := s.posted.all (fun w => w.frame.all (fun t => t.2 != (p, f)))

/-- R362: the logged writes of a frame's windows up to `w` have all performed. -/
def writesPerformed (s : State) (p f w : Nat) : Bool :=
  s.elems.all (fun e => e.2.port.all (fun m => m.plid != p || mFrame m != f || m.dead || decide (w < m.win) || mPerformed m || mEvent m || mFence m)
      && e.2.ctx.toList.all (fun c => c.st == .free || c.plid != p || (c.fifo.toList.all (fun q => q.all (fun t =>
          t.frame.toNat != f || (match t.cmd with
            | some m => decide (w < m.win)
            | none => true))) && c.inflight.all (fun i => i.tag.frame.toNat != f || decide (w < i.win)))))
    && (match s.placeOf p with
      | some pl => pl.saved.all (fun v => v.toks.all (fun t => t.dropped || t.frame != f || (match t.cmd with
          | some m => decide (w < m.win)
          | none => true)))
      | none => true)
    && s.clusters.all (fun k => k.2.ce.all (fun y => y.plid != p || y.sender.isNone || y.tag.frame.toNat != f || decide (w < y.win)))
    && s.guest.tags.all (fun t => t.2.plid != p || t.2.tag.frame.toNat != f || decide (w < t.2.win)) && nonePosted s p f

/-- R362: what a cut in progress needs to complete. -/
def cutDone (s : State) (p f : Nat) : Bool :=
  match s.placeOf p, (s.frameOf p f).log.cut with
  | some pl, some w =>
    (List.range (4 * pl.n)).all (fun ve => (s.frameOf p f).log.drained.contains ve) && writesPerformed s p f w
      && logRoom (s.frameOf p f).log (entrySize 0)
  | _, _ => false

/-- R362, R372, R373 WINDOW_CLOSE: the cut of frame `f` of placement `p` completes. -/
def execWindowClose (s : State) : Result :=
  .next (
    let p := s.arg.p
    let f := s.arg.f
    match (s.frameOf p f).log.cut with
    | none => s
    | some w =>
      if !cutDone s p f then s
      else
        match copyAmong s (ringPieces (s.frameOf p f).log (s.frameOf p f).log.tail (entrySize 0)) with
        | some line => recallLine s line
        | none =>
        let ev := (s.frameOf p f).log.cutEvent
        let s1 : State := appendEntry s p f (plainEntry lgCLOSE w 0 0 [])
        let s2 : State := s1.updFrame p f (fun r => { r with log := { r.log with
          cut := none, cutEvent := none, drained := []
          states := r.log.states.map (fun z => if z.1 = w then (z.1, winClosed z.2) else z) } })
        let s3 : State := { s2 with elems := s2.elems.map (fun e => (e.1, { e.2 with ctx := e.2.ctx.map (fun c =>
          if c.plid = p ∧ c.st ≠ .free then { c with stagings := c.stagings.filter (fun z => !(z.frame == f && z.w == w + 1)) } else c) })) }
        match ev with
        | some (c, k) => eventOp s3 c 0 k
        | none => s3)

/-! WRETIRE (R367) -/

/-- R367, R371 WRETIRE. -/
def opWretire (s : State) (a b : Word) : OpResult :=
  let all := bit b 16
  onLogged s a (field a 24 40 == 0 && field b 17 47 == 0 && (!all || field b 0 16 == 0)) (fun p f =>
    let g := (s.frameOf p f).log
    let r := field b 0 16
    if g.mode = 0 then .status s stNOLOGMODE
    else if !all && (!windowComplete g r || decide (r < g.floor)) then .status s stNOCUT
    else
      let head := if all then g.tail
        else (((logEntries s g).find? (fun l => decide (r < l.2.win))).map (·.1)).getD g.tail
      let floor := if all then highestWindow s p f else r
      let s1 : State := s.updFrame p f (fun q => { q with log := { q.log with
        head := head, gaps := q.log.gaps.filter (fun y => decide (head ≤ y.1)), floor := floor, below := if all then q.log.below else max q.log.below (r + 1)
        states := q.log.states.map (fun w => if all || decide (w.1 ≤ r) then (w.1, winRetired w.2) else w) } })
      .done s1 (statusWord stOK 0 (head - g.head)))

/-- R371 WRETIRE. -/
def execWretire (d a b : BitVec 5) (s : State) : Result :=
  .next (kernelOnly (.wretire d a b) s (seqOp d (opWretire s (s.reg a) (s.reg b))))

/-! Undoing (R364, R369) -/

/-- R357, R364: the location that an entry's LOC names. -/
def locOf (l : LogEntry) : Option Loc :=
  if l.loc / 2 ^ 62 = 0 then
    (let a := l.loc % 2 ^ 46
     if a / 2 ^ 44 = 0 then some (.hbm a) else (commonsAt (a % 2 ^ 44)).map (fun c => .commons c.1 c.2))
  else if l.loc / 2 ^ 62 = 1 then
    some (.pool (l.loc / 2 ^ 33 % 2 ^ 14) (l.loc / 2 ^ 21 % 2 ^ 12) (l.loc / 2 ^ 19 % 4) (l.loc % 2 ^ 19))
  else none

/-- R364 step 3, R365, R450: the old bytes of an entry are written at its location but for those that its write had left alone, a line of HBM under the key it was written
under; a write that covers only part of a bad unit is skipped. (DEDUCED, unsafe: log 66.) -/
def undoWrite (s : State) (gaps : List Nat) (l : LogEntry) : State :=
  match locOf l with
  | none => s
  | some loc =>
    let base := loc.back loc.inLine
    let ws := (List.zip (List.range l.data.length) l.data).filterMap (fun b => if gaps.contains b.1 then none else some (loc.inLine + b.1, b.2))
    let offs := ws.map (·.1)
    match base with
    | .hbm a =>
      if s.hbmErr.contains (a / 128) && !(List.range 128).all offs.contains then s
      else dropCopies { s with hbm := memPut s.hbm a ws, hbmErr := s.hbmErr.filter (· != a / 128) } (a / 128)
    | _ => if lineRefuses s 0 base offs then s else putLine s 0 base offs ws

/-- R356, R364: UNDONE is set in the entry at a byte index of a frame's ring. -/
def markUndone (s : State) (p : Nat) (g : Log) (i : Nat) (l : LogEntry) : State :=
  ringWrite s p g (i + 27) (leBytes 1 (l.kind + 8 + at' l.spec 4))

/-- R364 step 3: an entry of a log at a byte index is undone, and marked so. -/
def undoEntry (s : State) (p : Nat) (g : Log) (i : Nat) (l : LogEntry) : State := markUndone (undoWrite s (Tab.getD g.gaps i []) l) p g i l

/-- An entry that names the old bytes of a write. -/
def entryUndoes (l : LogEntry) : Bool := l.kind == lgSTORE || l.kind == lgATOMIC

/-- R358, R427: the undo of some entries, of which those that hold old bytes are written back and all are marked, waits: for a line that a write of another frame holds, or
for a copy of the guest's, which is recalled. -/
def undoWaits (s : State) (g : Log) (es : List (Nat × LogEntry)) : Option State :=
  let locs := es.filterMap (fun l => if entryUndoes l.2 then (locOf l.2).map (fun loc => (loc, l.2.data.length)) else none)
  if locs.any (fun l => lineHeld s l.1) then some s
  else (copyAmong s (locs.filterMap (fun l => match l.1 with
      | .hbm a => some (a, l.2)
      | _ => none) ++ es.flatMap (fun l => ringPieces g (l.1 + 27) 1))).map (recallLine s)

/-- R364 step 2, R369: no memory-port entry, copy command or guest packet of the frame is still to perform, in a route's FIFO or accepted; no firing of it is in progress, and
the guest holds no packet of it (R432). -/
def frameStill (s : State) (p f : Nat) : Bool :=
  s.elems.all (fun e => e.2.port.all (fun m => m.plid != p || mFrame m != f || mPerformed m || (m.dead && !mSent m))
      && e.2.ctx.toList.all (fun c => c.st == .free || c.plid != p || (c.inflight.all (fun i => i.tag.frame.toNat != f)
        && c.fifo.toList.all (fun q => q.all (fun t => t.frame.toNat != f || t.cmd.isNone)))))
    && s.clusters.all (fun k => k.2.ce.all (fun y => y.plid != p || y.sender.isNone || y.tag.frame.toNat != f))
    && s.guest.tags.all (fun t => t.2.plid != p || t.2.tag.frame.toNat != f) && nonePosted s p f

/-- R371: IRREVOCABLE entries above window `k` that have not been undone. -/
def irrevocableAbove (s : State) (g : Log) (k : Nat) : Nat :=
  (logEntries s g).countP (fun l => decide (k < l.2.win) && !l.2.undone && l.2.kind == lgIRREV)

/-- R371 RWIN: its checks, and step 1 of R364. -/
def opRwin (s : State) (d : Nat) (a b : Word) : OpResult :=
  onLogged s a (field a 24 40 == 0 && field b 17 47 == 0) (fun p f =>
    let fr := s.frameOf p f
    let g := fr.log
    let k := field b 0 16
    let n := irrevocableAbove s g k
    if g.mode = 0 then .status s stNOLOGMODE
    else if !(fr.st == .running || fr.st == .deadlocked) || plotsAway s p then .status s stBADSTATE
    else if !windowComplete g k || decide (k < g.floor) then .status s stNOCUT
    else if !bit b 16 && n != 0 then .done s (statusWord stCROSSED cIRREVOCABLE n)
    else if (match s.placeOf p with
        | some pl => pl.moving.isSome
        | none => false) then .wait s .again
    else .wait (s.updFrame p f (fun r => { r with st := .rolling, bump := some (.rollback k false) })) (.bump d p f))

/-- R371 RWIN. -/
def execRwin (d a b : BitVec 5) (s : State) : Result :=
  .next (kernelOnly (.rwin d a b) s (seqOp d (opRwin s d.toNat (s.reg a) (s.reg b))))

/-- R364 step 3: the entries above cut `k`, newest first, are undone; with the number of IRREVOCABLE entries skipped. -/
def undoAbove (s : State) (p f k : Nat) : State × Nat :=
  let g := (s.frameOf p f).log
  (logEntries s g).reverse.foldl (fun (r : State × Nat) (l : Nat × LogEntry) =>
    if l.2.win ≤ k || l.2.undone then r
    else if l.2.kind = lgIRREV then (markUndone r.1 p g l.1 l.2, r.2 + 1)
    else if entryUndoes l.2 then (undoEntry r.1 p g l.1 l.2, r.2)
    else r) (s, 0)

/-- The entries that a rollback to cut `k` undoes or marks. -/
def entriesAbove (s : State) (g : Log) (k : Nat) : List (Nat × LogEntry) := (logEntries s g).filter (fun l => decide (k < l.2.win) && !l.2.undone)

/-- R364 step 4: one token of a checkpoint enters its context under the frame's new generation, spills, or waits there. -/
def restoreToken (s : State) (e x p f : Nat) (net : Bool) (t : Tok) : State :=
  let u := { t with gen := (s.frameOf p f).gen }
  if !(s.ctxOf e x).waitIn.isEmpty then s.updCtx e x (fun c => { c with waitIn := c.waitIn ++ [(net, u)] })
  else
    match arrive s e x p chanDirect net u with
    | .taken s1 => s1
    | .refused s1 => s1.updCtx e x (fun c => { c with waitIn := c.waitIn ++ [(net, u)] })

/-- R363, R364 step 4: a context is restored from the data of its WINDOW_OPEN entry. -/
def restoreCheckpoint (s : State) (p f : Nat) (bs : List Byte) (nets : List Bool) : State :=
  let id := leAt bs 0 8
  match holderOf s p (id / 2 ^ 14 % 2 ^ 12) (id / 2 ^ 26 % 4) with
  | none => s
  | some (e, x) =>
    let nent := leAt bs 8 4
    let acg := leAt bs 14 1
    let e0 := 144 + 4096 * acg
    let t0 := e0 + 32 * nent
    let s1 : State := s.updCtx e x (fun c => { c with
      sw := Vector.ofFn (fun k : Fin 16 => word (leAt bs (16 + 8 * k.val) 8))
      pool := memWrite c.pool ((pMSG c.part + pTSG c.part) * 4096) ((bs.drop 144).take (4096 * acg))
      poolErr := coverErr c.poolErr 8 ((pMSG c.part + pTSG c.part) * 4096) (4096 * acg) })
    (List.range nent).foldl (fun (st : State) (i : Nat) =>
      let b := (bs.drop (e0 + 32 * i)).take 32
      let t := tokOfHeader (word (leAt b 0 8)) (word (leAt b 8 8))
      let n := shapeBytes (dFMT t.payload) (dRows t.payload) (dCols t.payload)
      let u := if t.kind == .tile then { t with tile := some ((bs.drop (t0 + 4096 * leAt b 24 8)).take n) } else t
      restoreToken st e x p f (nets.getD i false) u) s1

/-- R364 steps 3 to 6: the rollback of a frame to cut `k`; with the number of IRREVOCABLE entries skipped. -/
def rollBack (s : State) (p f k : Nat) : State × Nat :=
  let r := undoAbove s p f k
  let g := (s.frameOf p f).log
  let es := logEntries r.1 g
  let s2 : State := es.foldl (fun (st : State) (l : Nat × LogEntry) =>
    if l.2.kind = lgOPEN ∧ l.2.win = k + 1 ∧ !l.2.undone then restoreCheckpoint st p f l.2.data (Tab.getD g.nets l.1 []) else st) r.1
  let s3 : State := es.foldl (fun (st : State) (l : Nat × LogEntry) =>
    if !l.2.undone && ((l.2.kind == lgOPEN && decide (k + 1 < l.2.win)) || (l.2.kind == lgCLOSE && decide (k < l.2.win))) then
      markUndone st p g l.1 l.2
    else st) s2
  let s4 : State := { s3 with elems := s3.elems.map (fun e => (e.1, { e.2 with ctx := e.2.ctx.map (fun c =>
    if c.plid = p ∧ c.st ≠ .free then
      { c with wins := Tab.set c.wins f (k + 1), stagings := c.stagings.filter (fun z => z.frame != f),
               marksIn := c.marksIn.filter (fun m => m.1 != f) }
    else c) })) }
  let s5 : State := s4.updFrame p f (fun q => { q with
    st := .running, bump := none
    log := { q.log with
      win := k + 1, cut := none, cutEvent := none, drained := []
      waiting := q.log.waiting.filter (fun h => h.kind != 2)
      seen := q.log.seen.filter (fun l => decide (l.2 ≤ k))
      states := Tab.set (q.log.states.map (fun w => if k < w.1 then (w.1, winUndone w.2) else w)) (k + 1) .opened } })
  let cls := match s5.placeOf p with
    | some pl => placeClusters pl
    | none => []
  (cls.foldl (fun (st : State) (c : Nat) => touch st c p f (st.frameOf p f).gen) s5, r.2)

/-- R364: the rollback of a frame to cut `k`, with the number of IRREVOCABLE entries skipped; or it waits for a line. -/
def rollBackNow (s : State) (p f k : Nat) : Except State (State × Nat) :=
  let g := (s.frameOf p f).log
  match undoWaits s g (entriesAbove s g k) with
  | some t => .error t
  | none => .ok (rollBack s p f k)

/-- R369, R367: of entries, newest first, those that an RSTEP of `n` undoes, and whether an IRREVOCABLE one stops it; entries of retired windows are passed over. -/
def stepEntries (g : Log) : List (Nat × LogEntry) → Nat → List (Nat × LogEntry) × Bool
  | [], _ => ([], false)
  | _, 0 => ([], false)
  | l :: rest, n + 1 =>
    if l.2.undone || l.2.kind = lgOPEN || l.2.kind = lgCLOSE || l.2.win < g.below then stepEntries g rest (n + 1)
    else if l.2.kind = lgIRREV then ([], true)
    else
      let r := stepEntries g rest n
      (l :: r.1, r.2)

/-- R369, R371 RSTEP. -/
def opRstep (s : State) (a b : Word) : OpResult :=
  onLogged s a (field a 24 40 == 0 && field b 32 32 == 0) (fun p f =>
    let fr := s.frameOf p f
    if fr.log.mode != 2 then .status s stNOLOGMODE
    else if field b 0 32 = 0 then .status s stBADARG
    else if !fr.paused || fr.st == .complete || plotsAway s p then .status s stBADSTATE
    else if !frameStill s p f then .wait s .again
    else
      let r := stepEntries fr.log (logEntries s fr.log).reverse (field b 0 32)
      match undoWaits s fr.log r.1 with
      | some t => .wait t .again
      | none =>
        let t := r.1.foldl (fun st l => undoEntry st p fr.log l.1 l.2) s
        .done t (if r.2 then statusWord stCROSSED cIRREVOCABLE r.1.length else statusWord stOK 0 r.1.length))

/-- R371 RSTEP. -/
def execRstep (d a b : BitVec 5) (s : State) : Result :=
  .next (kernelOnly (.rstep d a b) s (seqOp d (opRstep s (s.reg a) (s.reg b))))

/-! FSTEP (R368, R371) -/

/-- A pause or a resume of a frame is sent to every context of its placement; the step budgets of saved contexts are cleared. -/
def sendPause (s : State) (p f : Nat) (on : Bool) : State :=
  let s0 : State := s.updPlace p (fun pl => { pl with saved := pl.saved.map (fun v => { v with
    ctxs := v.ctxs.map (fun c => { c with budget := Tab.del c.budget f }) }) })
  let s1 : State := s0.updFrame p f (fun r => { r with paused := on })
  { s1 with elems := s1.elems.map (fun e => (e.1, { e.2 with ctx := e.2.ctx.map (fun c =>
      if c.plid = p ∧ c.st ≠ .free then { c with pauseReq := c.pauseReq.filter (fun q => q.1 != f) ++ [(f, on)] } else c) })) }

/-- A context still has to land a pause or a resume of a frame. -/
def pauseDue (s : State) (p f : Nat) : Bool :=
  s.elems.any (fun e => e.2.ctx.toList.any (fun c => c.st != .free && c.plid == p && c.pauseReq.any (fun q => q.1 == f)))

/-- A context can land a pause or a resume of a frame: no firing of the frame is in progress there. -/
def pauseLands (s : State) (e x f : Nat) : Bool :=
  let c := s.ctxOf e x
  c.pauseReq.any (fun q => q.1 == f) && c.inflight.all (fun i => i.tag.frame.toNat != f)

/-- R368: a pause or a resume lands at a context; the budget is 0 at a pause, and a resume clears it. -/
def landPause (s : State) (e x f : Nat) : State :=
  s.updCtx e x (fun c => match c.pauseReq.find? (fun q => q.1 == f) with
    | none => c
    | some (_, true) => { c with pauseReq := c.pauseReq.filter (fun q => q.1 != f)
                                 paused := if c.paused.contains f then c.paused else f :: c.paused
                                 budget := Tab.del c.budget f }
    | some (_, false) => { c with pauseReq := c.pauseReq.filter (fun q => q.1 != f), paused := c.paused.filter (· != f)
                                  budget := Tab.del c.budget f })

/-- The firings of a frame that have consumed a step budget at a virtual element, wherever that stands. -/
def steppedAt (s : State) (p f ve : Nat) : Nat :=
  match holderOfVelem s p ve with
  | some (e, x) => Tab.getD (s.ctxOf e x).stepped f 0
  | none =>
    match (s.placeOf p).bind (fun pl => pl.saved.find? (fun v => v.vp == ve / 4)) with
    | some v => ((v.ctxs[ve % 4]?).map (fun c => Tab.getD c.stepped f 0)).getD 0
    | none => 0

/-- R371: the firings that a step of `n` firings has done. -/
def stepDone (s : State) (p f ve n base : Nat) : Nat := min n (steppedAt s p f ve - base)

/-- R371: a step is over: its firings have completed, no slot of the frame is ready, the frame is paused no more, or the context has been saved. -/
def stepOver (s : State) (p f ve n base : Nat) : Bool :=
  match holderOfVelem s p ve with
  | none => true
  | some (e, x) =>
    let c := s.ctxOf e x
    c.st != .live || (c.inflight.all (fun i => i.tag.frame.toNat != f) &&
      (!(s.frameOf p f).paused || decide (n ≤ stepDone s p f ve n base)
        || !((matchedSites s e).any (fun t => t.x == x && readyAt s t && (fireOf s t).tag.frame.toNat == f))))

/-- R371 FSTEP; `under` is the step that this one already waits for. -/
def opFstep (s : State) (d : Nat) (under : Option SeqWait) (a b : Word) : OpResult :=
  let mode := field b 62 2
  match under with
  | some (.fstep _ p f true ve n base) =>
    if stepOver s p f ve n base then .done s (statusWord stOK 0 (stepDone s p f ve n base)) else .wait s (.fstep d p f true ve n base)
  | _ =>
    onLogged s a (field a 24 40 == 0 && field b 48 14 == 0 && (mode == 0 || field b 0 48 == 0)) (fun p f =>
      let n := field b 0 32
      let e := (field b 39 3 * 96 + field b 32 7) * 16 + field b 42 4
      let x := field b 46 2
      if mode = 3 then .status s stBADARG
      else if mode = 0 then
        (if n = 0 then .status s stBADARG
        else
          let c := s.ctxOf e x
          let there := decide (field b 39 3 < 6) && decide (field b 32 7 < 96) && c.st != .free && c.plid == p
          if !(s.frameOf p f).paused || !there then .status s stBADSTATE
          else
            .wait (s.setCtx e x { c with budget := Tab.set c.budget f (Tab.getD c.budget f 0 + n) })
              (.fstep d p f true c.velem n (Tab.getD c.stepped f 0)))
      else
        let t := sendPause s p f (mode == 1)
        if pauseDue t p f then .wait t (.fstep d p f false 0 0 0) else .status t stOK)

/-- R371 FSTEP. -/
def execFstep (d a b : BitVec 5) (s : State) : Result :=
  .next (kernelOnly (.fstep d a b) s (seqOp d (opFstep s d.toNat s.me.wait (s.reg a) (s.reg b))))

/-! WCFG (R371) -/

/-- A ring that WCFG or a LAUNCH may give a frame. -/
def ringOk (s : State) (base lg : Nat) : Bool :=
  decide (16 ≤ lg ∧ lg ≤ 36) && base % 2 ^ lg == 0 && hbmRange s base (2 ^ lg)

/-- R371: a frame begins to log; writes that the log before held perform without entries. -/
def startLog (s : State) (p f mode base lg : Nat) (pooled : Bool) : State :=
  let w := highestWindow s p f
  (discardLog s p f).updFrame p f (fun r => { r with log := { r.log with
    mode := mode, base := base, lg := lg, win := w, states := [(w, .opened)], pooled := pooled } })

/-- R371: the entries of a log are copied to a new ring at the same indices. -/
def moveRing (s : State) (p f base lg : Nat) : State :=
  let g := (s.frameOf p f).log
  let bs := ringRead s g g.head (g.tail - g.head)
  let g1 := { g with base := base, lg := lg, pooled := false }
  (ringWrite s p g1 g.head bs).updFrame p f (fun r => { r with log := { r.log with base := base, lg := lg, pooled := false } })

/-- R371 WCFG. (DEDUCED, unsafe: log 67.) -/
def opWcfg (s : State) (a b c : Word) : OpResult :=
  onLogged s a (field a 27 37 == 0) (fun p f =>
    let fr := s.frameOf p f
    let mode := field a 24 2
    let move := bit a 26
    let base := field b 0 46
    let lg := field c 0 6
    if mode = 3 || (mode = 0 && (b != 0 || c != 0 || move)) || field b 46 18 != 0 || field b 44 2 != 0 || field c 6 58 != 0
        || (mode != 0 && !ringOk s base lg) then .status s stBADARG
    else if (mode != 0 && (rootOf s p).isNone) || (!move && mode != 0 && fr.st != .opened) then .status s stBADSTATE
    else if move && (mode != fr.log.mode || fr.log.mode == 0) then .status s stBADARG
    else if move && decide (2 ^ lg < fr.log.tail - fr.log.head) then .status s stNOROOM
    else if mode = 0 then .status (discardLog s p f) stOK
    else if move then
      (match copyAmong s (ringPieces { fr.log with base := base, lg := lg } fr.log.head (fr.log.tail - fr.log.head)) with
      | some line => .wait (recallLine s line) .again
      | none => .status (moveRing s p f base lg) stOK)
    else .status (startLog s p f mode base lg false) stOK)

/-- R371 WCFG. -/
def execWcfg (d a b c : BitVec 5) (s : State) : Result :=
  .next (kernelOnly (.wcfg d a b c) s (seqOp d (opWcfg s (s.reg a) (s.reg b) (s.reg c))))

end Sys2Proof.Machine
end

