-- ==== Sys2Proof/Machine/Engine.lean ====
section
/-! DEFINITION. The copy engine (R284 to R292, R333, R345, R352, R353) and the Reeve's notices of SIGOP (R295). -/

namespace Sys2Proof.Machine

/-! Acceptance (R290) -/

/-- The head of a route to the copy engine of the cluster that holds the route's plot. -/
def ceHead (s : State) (e x r : Nat) : Option Tok :=
  let rt := vget (s.ctxOf e x).routes r 0
  if rtV rt && rtTGT rt == 1 && rtEPN rt == 0 then fifoHead s e x r else none

/-- R287: the return route of a command. -/
def cyRET (y : CeCmd) : Nat := field (y.words.getD 4 0) 0 4

/-- R290: the bytes that a command copies. -/
def cyTotal (y : CeCmd) : Nat := (field (y.words.getD 2 0) 48 16 + 1) * (field (y.words.getD 2 0) 0 20 + 1)

/-- A command has copied everything or has stopped. -/
def cyCopied (y : CeCmd) : Bool := y.code != 0 || decide (cyTotal y ≤ y.pos)

/-- R291: a command has done all but its completion, or has stopped. -/
def cyEnded (y : CeCmd) : Bool := cyCopied y && (!y.signal || y.code != 0 || y.signaled)

/-- R345: the completion of an ended command stands in the staging area of the edge port: its context is saved or draining. -/
def cyStaged (s : State) (y : CeCmd) : Bool :=
  cyEnded y && match y.sender with
    | some (vp, el) =>
      match holderOf s y.plid vp el with
      | some (e, x) => (s.ctxOf e x).st != .live
      | none => true
    | none => false

/-- R286, R290, R345: the head of a route to a copy engine can be accepted. -/
def ceAccepts (s : State) (e x r : Nat) : Bool :=
  match ceHead s e x r with
  | none => false
  | some t =>
    let c := s.ctxOf e x
    let cl := rtPLOT (vget c.routes r 0) / 4
    targetOpen s c r && (staleTok s (clusterOfElem e) c.plid t || decide ((s.clusterOf cl).ce.countP (fun y => !cyStaged s y) < 256))

/-- What a command that no firing sent keeps of one. -/
def noSource : Source := { win := 0, elem := 0, cs := 0, iter := 0, spec := 0 }

/-- R290, R359: the command that a token gives a copy engine. -/
def ceCommand (s : State) (c : Ctx) (t : Tok) : CeCmd :=
  let ws := wordsOf 8 ((t.tile.getD []).take 64)
  let m := t.cmd.getD noSource
  { id := s.nextCmd, pos := 0, iter0 := m.iter, spec0 := m.spec, spec := t.spec.toNat, code := 0, fva := 0, words := ws
    sender := some (c.vp, c.el), plid := c.plid, root := rootOf s c.plid, signal := field (ws.getD 6 0) 62 2 != 0
    tag := { t with tile := none, slotRef := none, payload := 0 }, win := m.win, elemField := m.elem, cs := m.cs, queue := none
    got := [], getting := none, signaled := false }

/-- R290 CE_COMMAND_ACCEPT: the head of a route to a copy engine is accepted: its custody moves in one cycle. A stale command is dropped (R74); one that a bridge has turned
into POISON is taken and does nothing (R392). (DESIGN CHOICE, safe: log 80.) -/
def execCeCommandAccept (s : State) : Result :=
  onUnit (okX s.arg.e s.arg.x) (
    let e := s.arg.e
    let x := s.arg.x
    let r := s.arg.r
    match ceHead s e x r with
    | none => s
    | some t =>
      if !ceAccepts s e x r then s
      else
        let c := s.ctxOf e x
        let cl := rtPLOT (vget c.routes r 0) / 4
        if staleTok s (clusterOfElem e) c.plid t then staleDrop (popFifo s e x r) (clusterOfElem e) c.plid t
        else if t.kind == .poison then leaveFifo s e x r c.plid t
        else
          let s1 : State := { s with nextCmd := s.nextCmd + 1 }.updCluster cl (fun k => { k with ce := k.ce ++ [ceCommand s c t] })
          leaveFifo (touch s1 cl c.plid t.frame.toNat t.gen) e x r c.plid t)

/-! Performing (R290, R291) -/

/-- R287: fields of a command. -/
def cySRC (y : CeCmd) : Nat := field (y.words.getD 0 0) 0 58
def cyDST (y : CeCmd) : Nat := field (y.words.getD 1 0) 0 58
def cyROWS (y : CeCmd) : Nat := field (y.words.getD 2 0) 48 16 + 1
def cyLEN (y : CeCmd) : Nat := field (y.words.getD 2 0) 0 20 + 1
def cyDSTR (y : CeCmd) : Int := signed 32 (field (y.words.getD 3 0) 32 32)
def cySSTR (y : CeCmd) : Int := signed 32 (field (y.words.getD 3 0) 0 32)
def cyCOOKIE (y : CeCmd) : Nat := field (y.words.getD 5 0) 0 48

/-- R290: the most pieces that a row of a command falls into, one for each destination line. -/
def cyPer (y : CeCmd) : Nat := (cyLEN y + 254) / 128

/-- R290: source, destination and size of piece `k` of a command: so many bytes of one row within one destination line; none (size 0) where the row has no such piece. -/
def cyPiece (y : CeCmd) (k : Nat) : Nat × Nat × Nat :=
  let row := k / cyPer y
  let i := k % cyPer y
  let start (base : Nat) (stride : Int) : Nat := (((base : Int) + stride * row) % 2 ^ 58).toNat
  let d := start (cyDST y) (cyDSTR y)
  let o := if i = 0 then 0 else 128 * i - d % 128
  ((start (cySRC y) (cySSTR y) + o) % 2 ^ 58, (d + o) % 2 ^ 58, min (cyLEN y - o) (128 - (d + o) % 128))

/-- The pieces of a command. -/
def cyPieces (y : CeCmd) : List Nat := (List.range (cyROWS y * cyPer y)).filter (fun k => (cyPiece y k).2.2 != 0)

/-- The pieces of a command that write in one destination line. -/
def cyInLine (y : CeCmd) (va : Nat) : List Nat := (cyPieces y).filter (fun k => (cyPiece y k).2.1 / 128 == va / 128)

/-- R211, R290: a command's accesses are Task accesses of the placement that sent it. -/
def cyAccess (c : Nat) (y : CeCmd) (kind : AccKind) : Access :=
  { kind := kind, task := true, fromSeq := false, plid := if y.sender.isSome then some y.plid else none, who := some (.ce y.id)
    walker := some (.ce c y.id) }

/-- R356, R359: whose writes a command's are. -/
def cyWriter (y : CeCmd) : Writer :=
  { p := y.plid, f := y.tag.frame.toNat, win := y.win, iter := y.iter0, elem := y.elemField, cs := y.cs, spec := y.spec0 }

/-- Change a command of a cluster. -/
def updCmd (s : State) (c k : Nat) (g : CeCmd → CeCmd) : State :=
  s.updCluster c (fun t => { t with ce := t.ce.map (fun y => if y.id = k then g y else y) })

/-- Answers of other packages that an owner waits for. -/
def owed (s : State) (o : Owner) : Bool := s.remotes.any (fun r => r.owner == o)

/-- R324: the window of a frame that a virtual element stands in, 0 in log mode OFF. -/
def elementWin (s : State) (p vp el f : Nat) : Nat :=
  if (s.frameOf p f).log.mode = 0 then 0
  else
    match holderOf s p vp el with
    | some (e, x) => Tab.getD (s.ctxOf e x).wins f 0
    | none =>
      match (s.placeOf p).bind (fun pl => (pl.saved.find? (fun v => v.vp == vp)).bind (fun v => v.ctxs[el]?)) with
      | some k => Tab.getD k.wins f 0
      | none => 0

/-- R333: the ENGINE record of a command that stops on a fault. -/
def cyRecord (s : State) (y : CeCmd) (code va : Nat) : State :=
  match y.sender with
  | none => s
  | some (vp, el) =>
    let f := y.tag.frame.toNat
    sendRecord s (s.frameOf y.plid f).home { recordZero with
      hdra := y.tag.header 0, paya := word (cyCOOKIE y), fval := word va, elem := y.elemField, cs := y.cs, code := code, kind := 5
      win := elementWin s y.plid vp el f, frm := frmField y.plid f y.tag.gen }

/-- R291, R333: a command stops on a fault, which is recorded at once; an append that it holds waits no longer (R366). -/
def stopCmd (s : State) (c : Nat) (y : CeCmd) (code va : Nat) : State :=
  logDrop (cyRecord (updCmd (walksPast (beatsPast s (.ce y.id)) (.ce c y.id)) c y.id (fun z => { z with code := code, fva := va, read := [] })) y code va)
    y.plid y.tag.frame.toNat (fun h => h.kind == 1 && h.loc == c && h.num == y.id)

/-- R352, R353, R366: a line that a command of a frame writes is logged; true where the write may perform. A COPY packet has no frame. -/
def logCommand (s : State) (c : Nat) (y : CeCmd) (ln : Line) (atomic : Bool) (gaps : List Nat) : State × Bool :=
  if y.sender.isSome then logLine s (cyWriter y) { kind := 1, loc := c, num := y.id, va := ln.va } ln atomic false gaps else (s, true)

/-- A held append of a command. -/
def cyHolds (c : Nat) (y : CeCmd) (h : Holder) : Bool := h.kind == 1 && h.loc == c && h.num == y.id

/-- The bytes that pieces of a command write in their line, in rising order of the pieces, each with its place in the line. -/
def cyBytes (y : CeCmd) (ks : List Nat) : List (Nat × Byte) :=
  ks.flatMap (fun k => (List.zip (List.range (cyPiece y k).2.2) (Tab.getD y.read k [])).map (fun p => ((cyPiece y k).2.1 % 128 + p.1, p.2)))

/-- R351: what the log's entry covers of a destination line: from the first to the last byte that the command writes there. -/
def cySpan (ln : Line) (offs : List Nat) : Line :=
  let lo := offs.foldl min ln.loc.inLine
  let hi := offs.foldl (fun h o => max h (o + 1)) (ln.loc.inLine + 1)
  { ln with va := ln.va - (ln.loc.inLine - lo), n := hi - lo, loc := (ln.loc.back ln.loc.inLine).fwd lo }

/-- Pieces of a command have been written. -/
def cyWrote (s : State) (c : Nat) (y : CeCmd) (ks : List Nat) : State :=
  updCmd s c y.id (fun z => { z with
    pos := z.pos + (ks.map (fun k => (cyPiece y k).2.2)).sum, done := z.done ++ ks, read := z.read.filter (fun p => !ks.contains p.1) })

/-- R290: the bytes of pieces written at their destination line. -/
def cyStore (s : State) (c : Nat) (y : CeCmd) (ln : Line) (ks : List Nat) : State :=
  let bytes (k : Nat) : List Byte := Tab.getD y.read k []
  let base := ln.loc.back ln.loc.inLine
  let at' (k : Nat) : Loc := base.fwd ((cyPiece y k).2.1 % 128)
  match ln.loc with
  | .peer _ _ => ks.foldl (fun st k => match at' k with
      | .peer p a => remoteWrite st (.ce c y.id) p a ln.key k (bytes k)
      | _ => st) s
  | .host _ => ks.foldl (fun st k => (writeLoc st ln.key (at' k) (bytes k)).getD st) s
  | .guest _ => ks.foldl (fun st k => (writeLoc st ln.key (at' k) (bytes k)).getD st) s
  | _ => putLine s ln.key base ((cyInLine y (ln.va)).flatMap (fun k => (List.range (cyPiece y k).2.2).map (fun i => (cyPiece y k).2.1 % 128 + i))) (cyBytes y ks)

/-- R290, R351, R358, R450: piece `k` of a command, which has been read, is written. What the home judges and the log records is the command's whole write of the line; a
logged line, and one that holds an error, is written at once, when all its pieces have been read. A line of a pool waits while its plot moves or is saved, while an MMAW reads
the weight buffer, and while a firing reads the standing slot (R229, R230, R245, R251). (DESIGN CHOICE, unsafe: log 133.) -/
def writePiece (s : State) (c : Nat) (y : CeCmd) (root : Word × Nat) (k : Nat) : State :=
  let va := (cyPiece y k).2.1
  let acc := cyAccess c y .write
  match walkNeeded s acc none c root [(va, (cyPiece y k).2.2)] with
  | some a => askWalk s acc c root a
  | none =>
    match translateLine s acc none c root va (cyPiece y k).2.2 with
    | .error code => stopCmd (countErr s acc none c root va code) c y code va
    | .ok (ln, lf) =>
      match ln.loc, guestCopy s ln.loc with
      | .devreg _, _ => stopCmd s c y cPERMISSION va
      | _, some line => recallLine s line
      | loc, none =>
        let all := cyInLine y va
        let offs := all.flatMap (fun j => (List.range (cyPiece y j).2.2).map (fun i => (cyPiece y j).2.1 % 128 + i))
        let base := loc.back loc.inLine
        let logged := y.sender.isSome && (s.frameOf y.plid y.tag.frame.toNat).log.mode != 0 && !ln.nolog
        let ks := if logged || lineStale s ln.key base offs then all.filter (fun j => !y.done.contains j) else [k]
        if !poolLands s loc || lineHeldBut s (cyHolds c y) loc || !ks.all (fun j => (Tab.get? y.read j).isSome) then s
        else if lostFor s acc c loc then stopCmd s c y cINTEGRITY va
        else if lineRefuses s ln.key base offs then stopCmd (countBad s loc) c y cINTEGRITY va
        else
          match logCommand s c y (cySpan ln offs) false (spanGaps (cySpan ln offs) offs) with
          | (s1, false) => s1
          | (s1, true) => walksPast (cyWrote (keepLeaf (beatsPast (cyStore s1 c y ln ks) (.ce y.id)) c lf) c y ks) (.ce c y.id)

/-- The translated lines of a read of a command. -/
def cyLines (s : State) (c : Nat) (y : CeCmd) (root : Word × Nat) (ps : List (Nat × Nat)) : List Line :=
  ps.filterMap (fun p => match translateLine s (cyAccess c y .read) none c root p.1 p.2 with
    | .ok r => some r.1
    | .error _ => none)

/-- The source of a piece, line by line. -/
def cySource (y : CeCmd) (k : Nat) : List (Nat × Nat) :=
  (splitLines ((cyPiece y k).2.2 + 1) (cyPiece y k).1 (cyPiece y k).2.2).map (fun q => (q.1 % 2 ^ 58, q.2))

/-- R290: the source of piece `k` of a command is read. A source in a pool whose plot moves or is saved waits (R229, R230). -/
def copyPiece (s : State) (c : Nat) (y : CeCmd) (root : Word × Nat) (k : Nat) : State :=
  let got := if y.reading != k then [] else match y.getting with
    | some g => g :: y.got
    | none => y.got
  let ps := cySource y k
  let acc := cyAccess c y .read
  match walkNeeded s acc none c root ps with
  | some a => askWalk s acc c root a
  | none =>
    if !(cyLines s c y root ps).all (fun l => poolThere s l.loc) then s
    else match gatherLines s acc c none root got ps with
    | .err code va => stopCmd (countErr s acc none c root va code) c y code va
    | .held => s
    | .need va n peer addr key =>
      remoteRead (updCmd s c y.id (fun z => { z with got := got, getting := some (va, List.replicate n 0), reading := k })) (.ce c y.id) peer addr key 0 n
    | .ok bs ls =>
      walksPast (updCmd (ls.foldl (fun st l => keepLeaf st c l) s) c y.id (fun z => { z with
        got := [], getting := none, read := Tab.set z.read k bs })) (.ce c y.id)

/-- R290, R266: an event of a command's piece `k`, in any order of the pieces: its source is read, or its destination written. -/
def pieceEvent (s : State) (c : Nat) (y : CeCmd) (root : Word × Nat) (k : Nat) : State :=
  if !(cyPieces y).contains k || y.done.contains k then s
  else if y.getting.isSome && y.reading != k then s
  else if (Tab.get? y.read k).isSome then writePiece s c y root k
  else copyPiece s c y root k

/-! Signal updates (R295) -/

/-- What a signal update gives: done or sent, not yet, or a fault with its address. -/
inductive SignalEnd where
  | done (s : State)
  | wait (s : State)
  | fault (code va : Nat)
  deriving DecidableEq, Repr

/-- R295: the new value of a signal location. -/
def signalNew (sop : Nat) (old v : Word) : Word := if sop = 1 then v else if sop = 2 then old + v else old - v

/-- R295, R437: a signal update at `va` by a copy engine or the Reeve; `log` logs its line. -/
def signalUpdate (s : State) (acc : Access) (c : Nat) (root : Word × Nat) (o : Owner) (va sop : Nat) (v : Word) (mine : Holder → Bool)
    (log : State → Line → State × Bool) : SignalEnd :=
  match walkNeeded s acc none c root [(va, 8)] with
  | some a => .wait (askWalk s acc c root a)
  | none =>
    match translateLine s acc none c root va 8 with
    | .error code => .fault code va
    | .ok (ln, lf) =>
      match ln.loc, guestCopy s ln.loc with
      | .devreg _, _ => .fault cPERMISSION va
      | _, some line => .wait (recallLine s line)
      | .peer p a, none =>
        match log s ln with
        | (s1, false) => .wait s1
        | (s1, true) =>
          .done (remoteAtomic (keepLeaf s1 c lf) o p a ln.key 8 (if sop = 1 then 0 else 1) (if sop = 3 then 0 - v else v) 0)
      | loc, none =>
        if !poolLands s loc || lineHeldBut s mine loc then .wait s
        else if lostFor s acc c loc then .fault cINTEGRITY va
        else match readLoc s ln.key loc 8 with
        | none => .fault cINTEGRITY va
        | some bs =>
          match log s ln with
          | (s1, false) => .wait s1
          | (s1, true) =>
            match writeLoc s1 ln.key loc (leBytes 8 (signalNew sop (word (leNat bs)) v).toNat) with
            | some s2 => .done (keepLeaf s2 c lf)
            | none => .fault cINTEGRITY va

/-- R291: the signal update of a CPYW command. -/
def cySignal (s : State) (c : Nat) (y : CeCmd) (root : Word × Nat) : State :=
  let w6 := y.words.getD 6 0
  match signalUpdate s (cyAccess c y .atomic) c root (.ce c y.id) (field w6 0 58) (field w6 62 2) (y.words.getD 7 0) (cyHolds c y)
      (fun st ln => logCommand st c y ln true []) with
  | .done t => updCmd t c y.id (fun z => { z with signaled := true })
  | .wait t => t
  | .fault code va => stopCmd (countErr s (cyAccess c y .atomic) none c root va code) c y code va

/-! Completion (R291, R333, R345) -/

/-- R291: the completion token of a command. -/
def cyCompletion (y : CeCmd) : Tok :=
  { y.tag with kind := .data, level := 0, spec := BitVec.ofNat 3 y.spec, tile := none, slotRef := none, cust := none, cmd := none
               payload := word (at' (if y.code = 0 then 0 else 1) 56 + at' y.code 48 + cyCOOKIE y) }

/-- R361: a marker that opens a later window is still due on a route of a context. -/
def markDue (s : State) (e x f win r : Nat) : Bool :=
  (s.ctxOf e x).stagings.any (fun z => z.frame == f && decide (z.w ≤ win) && z.fwd.contains r)

/-- R291, R345: an earlier command is to return first on the route on which command `y` of cluster `c` returns: one that its copy engine accepted before it, or one of another
copy engine that has ended. -/
def cyBehind (s : State) (c : Nat) (y : CeCmd) : Bool :=
  let same (z : CeCmd) : Bool := z.plid == y.plid && z.sender == y.sender && cyRET z == cyRET y
  ((s.clusterOf c).ce.takeWhile (fun z => z.id != y.id)).any same
    || s.clusters.any (fun k => k.1 != c && k.2.ce.any (fun z => same z && decide (z.id < y.id) && cyEnded z))

/-- R291, R345, R361: the completion of an ended command can enter its return route: its context is live, the FIFO has room, no earlier command is to return there first,
and no marker is due there first. (DEDUCED, safe: log 58.) -/
def cyReturns (s : State) (c : Nat) (y : CeCmd) : Bool :=
  match y.sender with
  | none => true
  | some (vp, el) =>
    staleTok s c y.plid y.tag || cyRET y == 15 ||
      (!cyBehind s c y
        && (match holderOf s y.plid vp el with
          | some (e, x) => (s.ctxOf e x).st == .live && decide (fifoUsed (s.ctxOf e x) (cyRET y) < 4)
              && !markDue s e x y.tag.frame.toNat y.win (cyRET y)
          | none => false))

/-- The command leaves the copy engine, and its completion enters its route. -/
def cyLeave (s : State) (c : Nat) (y : CeCmd) : State :=
  let s1 : State := walksPast (s.updCluster c (fun k => { k with ce := k.ce.filter (fun z => z.id != y.id) })) (.ce c y.id)
  match y.sender with
  | none => s1
  | some (vp, el) =>
    let f := y.tag.frame.toNat
    if staleTok s c y.plid y.tag then staleDrop s1 c y.plid y.tag
    else if cyRET y = 15 then left s1 c y.plid f y.tag.gen
    else
      match holderOf s y.plid vp el with
      | some (e, x) => left (enterFifo s1 e x (cyRET y) (cyCompletion y)) c y.plid f y.tag.gen
      | none => s1

/-- R286: a stale command that has not started: it is dropped. -/
def cyUnstarted (s : State) (c : Nat) (y : CeCmd) : Bool :=
  y.pos == 0 && y.read.isEmpty && y.got.isEmpty && y.getting.isNone && y.code == 0 && y.sender.isSome && staleTok s c y.plid y.tag

/-- A command can go on: it is not coloured, or is stale and has not started (R286), and waits for no answer. -/
def cyGoesOn (s : State) (c : Nat) (y : CeCmd) : Bool :=
  cyUnstarted s c y || y.spec == 0 && !owed s (.ce c y.id)
    && (!cyEnded y || cyReturns s c y)

/-- R290, R291: one step of a command: a stale one that has not started is dropped (R286); piece `n` goes on; the signal is updated; or it ends: the completion
enters its route, or a COPY packet learns its end. -/
def cyStep (s : State) (c : Nat) (y : CeCmd) (n : Nat) (root : Word × Nat) (packet : State → Nat × Nat → State) : State :=
  if cyUnstarted s c y then
    staleDrop (walksPast (s.updCluster c (fun k => { k with ce := k.ce.filter (fun z => z.id != y.id) })) (.ce c y.id)) c y.plid y.tag
  else if !cyCopied y then pieceEvent s c y root n
  else if y.signal && y.code == 0 && !y.signaled then cySignal s c y root
  else if !cyReturns s c y then s
  else
    let s1 := cyLeave s c y
    match y.queue with
    | some q => packet s1 q
    | none => s1

/-! Notices (R295) -/

/-- R295 SIGOP_NOTICE: the Reeve raises the vector of the oldest notice. -/
def execSigopNotice (s : State) : Result :=
  .next (match s.notices with
    | [] => s
    | v :: rest => { s with notices := rest }.emitOut (.msix v))

end Sys2Proof.Machine
end

