-- ==== Sys2Proof/Machine/Hash.lean ====
section
/-! DEFINITION. The hash functions that R297, R444 and R445 name: SHA3-256 (FIPS 202) and KMAC256 (NIST SP 800-185). -/

namespace Sys2Proof.Machine

/-- The 25 lanes of a Keccak state, lane (x, y) at x + 5y. -/
abbrev Lanes := List Word

/-- A lane. -/
def lane (a : Lanes) (x y : Nat) : Word := a.getD (x % 5 + 5 * (y % 5)) 0

/-- Lanes from a function of x and y. -/
def lanesOf (f : Nat → Nat → Word) : Lanes := (List.range 25).map (fun i => f (i % 5) (i / 5))

/-- The rotation offsets of rho, at x + 5y. -/
def rhoOffsets : List Nat := [0, 1, 62, 28, 27, 36, 44, 6, 55, 20, 3, 10, 43, 25, 39, 41, 45, 15, 21, 8, 18, 2, 61, 56, 14]

/-- The round constants of iota. -/
def iotaConstants : List Word :=
  [0x0000000000000001#64, 0x0000000000008082#64, 0x800000000000808A#64, 0x8000000080008000#64, 0x000000000000808B#64,
   0x0000000080000001#64, 0x8000000080008081#64, 0x8000000000008009#64, 0x000000000000008A#64, 0x0000000000000088#64,
   0x0000000080008009#64, 0x000000008000000A#64]
  ++ [0x000000008000808B#64, 0x800000000000008B#64, 0x8000000000008089#64, 0x8000000000008003#64, 0x8000000000008002#64,
   0x8000000000000080#64, 0x000000000000800A#64, 0x800000008000000A#64, 0x8000000080008081#64, 0x8000000000008080#64,
   0x0000000080000001#64, 0x8000000080008008#64]

/-- One round of Keccak-f[1600]. -/
def keccakRound (a : Lanes) (rc : Word) : Lanes :=
  let c : List Word := (List.range 5).map (fun x => lane a x 0 ^^^ lane a x 1 ^^^ lane a x 2 ^^^ lane a x 3 ^^^ lane a x 4)
  let d (x : Nat) : Word := c.getD ((x + 4) % 5) 0 ^^^ (c.getD ((x + 1) % 5) 0).rotateLeft 1
  let t : Lanes := lanesOf (fun x y => lane a x y ^^^ d x)
  -- after rho and pi, the lane at (y, 2x + 3y) is that of (x, y) rotated: (x, y) comes from (x + 3y, x)
  let b : Lanes := lanesOf (fun x y => (lane t (x + 3 * y) x).rotateLeft (rhoOffsets.getD ((x + 3 * y) % 5 + 5 * x) 0))
  let e : Lanes := lanesOf (fun x y => lane b x y ^^^ (~~~(lane b (x + 1) y) &&& lane b (x + 2) y))
  (e.getD 0 0 ^^^ rc) :: e.drop 1

/-- Keccak-f[1600]. -/
def keccakF (a : Lanes) : Lanes := iotaConstants.foldl keccakRound a

/-- The rate of a capacity of 512 bits, in bytes. -/
def rate : Nat := 136

/-- A padded message absorbed block by block. -/
def absorb (fuel : Nat) (a : Lanes) (m : List Byte) : Lanes :=
  match fuel with
  | 0 => a
  | f + 1 =>
    if m.isEmpty then a
    else
      let blk : List Word := wordsOf 17 (m.take rate)
      absorb f (keccakF ((List.zip (List.range 25) a).map (fun p => p.2 ^^^ blk.getD p.1 0))) (m.drop rate)

/-- A message with its domain suffix and the padding 10*1. -/
def padded (suffix : Byte) (m : List Byte) : List Byte :=
  let n := rate - m.length % rate
  if n = 1 then m ++ [suffix ||| 0x80] else m ++ [suffix] ++ List.replicate (n - 2) 0 ++ [0x80]

/-- The first `n` bytes, at most one block, of the sponge's output. -/
def sponge (suffix : Byte) (m : List Byte) (n : Nat) : List Byte :=
  (bytesOfWords (absorb (m.length / rate + 2) (List.replicate 25 0) (padded suffix m))).take n

/-- SHA3-256. (PRESUMED, unsafe: log 89.) -/
def sha3 (m : List Byte) : List Byte := sponge 0x06 m 32

/-- A number in the fewest bytes, at least one, highest first. -/
def beBytes (v : Nat) : List Byte := (leBytes (Nat.log2 v / 8 + 1) v).reverse

/-- left_encode of SP 800-185. -/
def leftEncode (v : Nat) : List Byte := BitVec.ofNat 8 (beBytes v).length :: beBytes v

/-- right_encode of SP 800-185. -/
def rightEncode (v : Nat) : List Byte := beBytes v ++ [BitVec.ofNat 8 (beBytes v).length]

/-- encode_string of SP 800-185. -/
def encodeString (m : List Byte) : List Byte := leftEncode (8 * m.length) ++ m

/-- bytepad of SP 800-185 to the rate. -/
def bytePad (m : List Byte) : List Byte :=
  let x := leftEncode rate ++ m
  x ++ List.replicate ((rate - x.length % rate) % rate) 0

/-- The ASCII bytes of a name. -/
def asciiBytes (name : String) : List Byte := name.toList.map (fun c => BitVec.ofNat 8 c.toNat)

/-- KMAC256 of `m` under a key, with a customisation string and an output of `n` bytes. -/
def kmac256 (key m : List Byte) (n : Nat) (custom : String) : List Byte :=
  sponge 0x04 (bytePad (encodeString (asciiBytes "KMAC") ++ encodeString (asciiBytes custom))
    ++ bytePad (encodeString key) ++ m ++ rightEncode (8 * n)) n

end Sys2Proof.Machine
end

