-- ==== Sys2Proof/Machine/Queues.lean ====
section
/-! DEFINITION. Host queues (R296 to R308): their descriptors and states, wakes, the validator, errors, the Reeve's choice of a queue, and the completion of
packets. -/

namespace Sys2Proof.Machine

/-! States (R299, R308) -/

/-- R303, R314: a LAUNCH that is still being issued: its queue issues no other packet meanwhile (R302). (DEDUCED, unsafe: log 54.) -/
def issuing (w : GoWait) : Bool :=
  match w with
  | .image | .args | .place _ _ | .compact _ | .evict _ _ _ _ | .alloc | .ring | .inject _ => true
  | _ => false

/-- The opcode of a packet. -/
def pkOPC (b : List Byte) : Nat := leAt b 0 1

/-- R302, R303: what an issued packet of a queue waits for makes the queue BLOCKED. -/
def blocks (g : Going) : Bool :=
  match g.wait with
  | .waitsig | .place _ _ | .compact _ | .evict _ _ _ _ | .alloc | .ring => true
  | _ => false

/-- R308: a queue is ready. -/
def queueReady (q : Queue) : Bool :=
  q.st == .active && q.ridx != q.widx && q.cur.isNone && q.going.all (fun g => !(pkOPC g.pkt.bytes == 1 && issuing g.wait))

/-- Change a queue; a queue that becomes ready begins to count its Wait (R308). -/
def updQ (s : State) (q : Nat) (f : Queue → Queue) : State :=
  let old := s.queueOf q
  let new := f old
  s.updQueue q (fun _ => if queueReady new && !queueReady old then { new with since := s.reeveCyc } else new)

/-- R299: an ACTIVE queue becomes BLOCKED. -/
def blockQueue (s : State) (q : Nat) : State :=
  updQ s q (fun k => if k.st = .active then { k with st := .blocked } else k)

/-- R299: a BLOCKED queue none of whose packets blocks it any more becomes ACTIVE. -/
def unblockQueue (s : State) (q : Nat) : State :=
  updQ s q (fun k => if k.st = .blocked ∧ k.cur.isNone ∧ k.going.all (fun g => !blocks g) then { k with st := .active } else k)

/-! Errors (R305, R306) -/

/-- R306: the error record as eight words. -/
def errorRecord (code opc fault off idx val : Nat) (pkt : List Byte) : Vector Word 8 :=
  let bs := leBytes 1 code ++ leBytes 1 opc ++ leBytes 1 fault ++ [0] ++ leBytes 4 off ++ leBytes 8 idx ++ leBytes 8 val
    ++ (pkt ++ List.replicate 40 0).take 40
  Vector.ofFn (fun n : Fin 8 => wordAt bs n.val)

/-- R305: a queue enters ERROR: ERREC is written and EVEC is raised. -/
def queueError (s : State) (q : Nat) (rec' : Vector Word 8) : State :=
  let k := s.queueOf q
  if k.st = .active ∨ k.st = .blocked then
    (s.updQueue q (fun k => { k with st := .error, errec := rec', cur := none })).emitOut (.msix k.evec)
  else s

/-! Commands (R296, R297, R299) -/

/-- R296: an address range: its first byte and its size. -/
def rangeOf (w : Word) : Nat × Nat := (field w 0 44 * 2 ^ 14, 2 ^ field w 48 6)

/-- R296: the fields of a descriptor are such as ENABLE requires. (DEDUCED, unsafe: log 45.) -/
def descriptorOk (q : Queue) : Bool :=
  decide (4 ≤ q.log2n ∧ q.log2n ≤ 20) && decide (field q.qbase 62 2 ≤ 1)
    && q.ranges.toList.all (fun w => !bit w 63
        || (decide (14 ≤ field w 48 6 ∧ field w 48 6 ≤ 58) && (rangeOf w).1 % (rangeOf w).2 == 0))

/-- R296, R299 QUEUE_ENABLE. -/
def execQueueEnable (s : State) : Result :=
  onUnit (okQ s.arg.q) (
    let k := s.queueOf s.arg.q
    if k.st != .disabled then s
    else if descriptorOk k then updQ s s.arg.q (fun k => { k with st := .active })
    else s.updQueue s.arg.q (fun k => { k with errec := errorRecord 0x03 0 0 0 0 0 [] }))

/-- R299 QUEUE_DISABLE: fetching stops; a packet that has not been issued is not issued. (DEDUCED, unsafe: log 56.) -/
def execQueueDisable (s : State) : Result :=
  onUnit (okQ s.arg.q) (s.updQueue s.arg.q (fun k =>
    if k.st = .active ∨ k.st = .blocked then { k with st := .disabled, cur := none } else k))

/-- R296, R299 QUEUE_RESET. -/
def execQueueReset (s : State) : Result :=
  onUnit (okQ s.arg.q) (s.updQueue s.arg.q (fun k =>
    if k.st = .disabled ∨ k.st = .error then { k with st := .disabled, ridx := 0, widx := 0, errec := Vector.replicate 8 0 } else k))

/-- R297: bits [191:0] of the capability of queue `q`. -/
def capBody (q : Nat) (k : Queue) : Nat :=
  at' q 144 + at' k.owner 112 + at' k.rights 96 + at' (2 ^ k.log2n % 2 ^ 32) 64 + k.qbase.toNat

/-- R297: the MAC of bits [191:0] of a capability under the device's sealing key. -/
def capMac (s : State) (body : Nat) : Nat := leNat (kmac256 (leBytes 32 s.dev.sealKey.toNat) (leBytes 24 body) 8 "")

/-- R297 QUEUE_SEAL. -/
def execQueueSeal (s : State) : Result :=
  onUnit (okQ s.arg.q) (s.updQueue s.arg.q (fun k =>
    let body := capBody s.arg.q k
    let bs := leBytes 24 body ++ leBytes 8 (capMac s body)
    { k with cap := Vector.ofFn (fun n : Fin 4 => wordAt bs n.val) }))

/-! Wakes (R298) -/

/-- R440: the tenant of a requester and a PASID, by the lowest matching entry; none without one. -/
def tenantOf (s : State) (rid pasid : Nat) : Option Nat :=
  (s.dev.tenmap.find? (fun t => t.2.getLsbD 127 && (t.2.extractLsb' 100 16).toNat == rid && (t.2.extractLsb' 80 20).toNat == pasid)).map
    (fun t => (t.2.extractLsb' 0 32).toNat)

/-- R298: a wake record is accepted for judgement. -/
def wakeValid (s : State) (bs : List Byte) (rid pasid : Nat) : Bool :=
  let cap := leAt bs 0 32
  let q := cap / 2 ^ 144 % 2 ^ 12
  let k := s.queueOf q
  capMac s (cap % 2 ^ 192) == cap / 2 ^ 192 && cap % 2 ^ 192 == capBody q k && k.rights % 2 == 1
    && tenantOf s rid pasid == some k.owner && (k.st == .active || k.st == .blocked) && leAt bs 40 24 == 0 && bs.length == 64

/-- R298 WAKE_RECORD: `bytes` written by requester `k` under PASID `n`; with BOOT = 2 nothing answers (R444). (DEDUCED, unsafe: log 46.) (DEDUCED, safe: log 83.) -/
def execWakeRecord (s : State) : Result :=
  .next (
    let bs := s.arg.bytes
    if s.dev.boot = 2 then s
    else if !wakeValid s bs s.arg.k s.arg.n then s.count 0 1
    else
      let q := leAt bs 0 32 / 2 ^ 144 % 2 ^ 12
      let k := s.queueOf q
      let n := wordAt bs 4
      let ahead := (n - k.widx).toNat
      if 1 ≤ ahead ∧ ahead < 2 ^ 63 then
        (if 2 ^ k.log2n < (n - k.ridx).toNat then queueError s q (errorRecord 0x07 0 0 0 k.ridx.toNat n.toNat [])
        else updQ s q (fun k => { k with widx := n }))
      else s.updQueue q (fun k => { k with stalew := k.stalew + 1 }))

/-! The validator (R300, R301, R304) -/

/-- A field of a packet as check 3 sees it: byte offset, size, the bits that are not reserved, and whether its value is within its limits. -/
structure PField where
  off : Nat
  size : Nat
  mask : Nat
  ok : Nat → Bool

/-- A field without limits. -/
def plainField (off size mask : Nat) : PField := ⟨off, size, mask, fun _ => true⟩

/-- R300: the fields that every packet has, but for the body. -/
def headFields (opc : Nat) : List PField :=
  [⟨1, 1, if opc = 0 then 0 else if opc = 1 then 3 else 2, fun _ => true⟩, plainField 2 2 0x7FF]

/-- R300, R301: the signal fields. -/
def signalFields (opc : Nat) : List PField :=
  [⟨48, 8, 0xC3FFFFFFFFFFFFFF, fun v => if opc = 0 then v / 2 ^ 62 == 0 else opc != 3 || v / 2 ^ 62 != 0⟩]

def all64 : Nat := 2 ^ 64 - 1

/-- R301: the body of a LAUNCH. -/
def launchFields (b : List Byte) : List PField :=
  let mode := leAt b 5 1 % 4
  let img := leAt b 15 1 / 128 == 1
  [⟨4, 1, 7, fun v => decide (1 ≤ v)⟩, ⟨5, 1, 7, fun v => v % 4 != 3⟩, ⟨6, 1, 0xFF, fun v => decide (1 ≤ v ∧ v ≤ 64)⟩,
   ⟨7, 1, 0xFF, fun v => decide (v ≤ 64)⟩, plainField 8 8 (if img then 2 ^ 63 + (2 ^ 58 - 1) else 0x3FFF), plainField 16 8 all64,
   ⟨24, 8, all64, fun v => leAt b 32 4 != 0 || v == 0⟩, plainField 32 4 0xFFFFFFFF,
   ⟨36, 1, 0xFF, fun v => v == 0 || (mode != 0 && decide (16 ≤ v ∧ v ≤ 36))⟩]

/-- R301, R287: the body of a COPY. -/
def copyFields : List PField :=
  [⟨4, 2, 0x3FF, fun v => decide (v / 128 < 6 ∧ v % 128 < 96)⟩, plainField 8 8 (2 ^ 58 - 1), plainField 16 8 (2 ^ 58 - 1),
   plainField 24 8 (0xFFFF * 2 ^ 48 + 0xFFFFF), plainField 32 8 all64]

/-- R314: the body of a RINGBIND. -/
def ringbindFields : List PField :=
  [plainField 4 1 0xFF, ⟨5, 1, 0xFF, fun v => decide (v ≤ 1)⟩, plainField 8 8 all64, ⟨16, 1, 0xFF, fun v => decide (12 ≤ v ∧ v ≤ 20)⟩,
   ⟨17, 1, 0xFF, fun v => decide (v ≤ 1)⟩, ⟨18, 2, 0xFFFF, fun v => decide (1 ≤ v ∧ v ≤ 8191)⟩,
   ⟨20, 2, 0xFFFF, fun v => decide (1 ≤ v ∧ v ≤ 256)⟩, plainField 24 4 0xFFFFFFFF,
   plainField 32 8 (0xFFFF * 2 ^ 48 + (2 ^ 30 - 1))]

/-- R374: the body of a DEBUG. -/
def debugFields : List PField :=
  [⟨4, 1, 0xFF, fun v => decide (v ≤ 6)⟩, plainField 5 1 7, plainField 6 1 0xFF, plainField 8 4 0xFFFFFF, plainField 12 4 0xFFFFFFFF,
   plainField 16 8 all64, plainField 24 2 0xFFFF]

/-- R301, R340: the fields of a packet's body. -/
def bodyFields (b : List Byte) : List PField :=
  match pkOPC b with
  | 0x1 => launchFields b
  | 0x2 => [⟨4, 1, 0xFF, fun v => decide (v ≤ 3)⟩, plainField 8 8 all64, plainField 16 8 all64]
  | 0x4 => copyFields
  | 0x5 => [plainField 4 1 3, plainField 8 8 all64, plainField 16 8 all64]
  | 0x6 => [plainField 8 2 0x3FFF, plainField 16 8 all64]
  | 0x8 => ringbindFields
  | 0x9 => debugFields
  | 0xA => [plainField 4 1 7, plainField 8 2 0x3FFF]
  | _ => []

/-- A byte of bytes 4 to 47 that no field of the body holds is reserved. -/
def gapFields (fs : List PField) : List PField :=
  ((List.range 44).map (· + 4)).filterMap (fun o =>
    if fs.any (fun f => decide (f.off ≤ o ∧ o < f.off + f.size)) then none else some (plainField o 1 0))

/-- Fields in the order of their offsets. -/
def byOffset (fs : List PField) : List PField := (List.range 64).flatMap (fun o => fs.filter (fun f => f.off == o))

/-- Check 3 of R304: the first field in error, with its value. (DEDUCED, unsafe: log 50.) -/
def fieldError (b : List Byte) : Option (Nat × Nat) :=
  let body := bodyFields b
  (byOffset (headFields (pkOPC b) ++ body ++ gapFields body ++ signalFields (pkOPC b))).findSome? (fun f =>
    let v := leAt b f.off f.size
    if v &&& f.mask == v && f.ok v then none else some (f.off, v))

/-- R300: the signal's address and operation. -/
def pkSVA (b : List Byte) : Nat := leAt b 48 8 % 2 ^ 58
def pkSOP (b : List Byte) : Nat := leAt b 48 8 / 2 ^ 62

/-- R304, R302: the address fields of a packet: offset, address, alignment and extent. (DEDUCED, unsafe: log 51.) -/
def addressFields (b : List Byte) : List (Nat × Nat × Nat × Nat) :=
  let body : List (Nat × Nat × Nat × Nat) :=
    match pkOPC b with
    | 0x1 => (if leAt b 15 1 / 128 = 1 then [(8, leAt b 8 8 % 2 ^ 58, 64, 64)] else []) ++ [(16, leAt b 16 8, 64, 16 * leAt b 6 1)]
        ++ (if leAt b 32 4 = 0 then [] else [(24, leAt b 24 8, 4096, 4096 * leAt b 32 4)])
    | 0x2 => [(8, leAt b 8 8, 8, 8)]
    | 0x5 => [(8, leAt b 8 8, 64, 64), (16, leAt b 16 8, 8, 8)]
    | 0x6 => [(16, leAt b 16 8, 8, 8)]
    | 0x8 => [(8, leAt b 8 8, 128, 128 + 2 ^ leAt b 16 1)]
    | 0x9 => [(16, leAt b 16 8, 8, 8)]
    | _ => []
  body ++ (if pkSOP b = 0 then [] else [(48, pkSVA b, 8, 8)])

/-- R301, R304: the rows of a COPY: offset of its field, address and size. -/
def copyRows (b : List Byte) : List (Nat × Nat × Nat) :=
  let w2 := leAt b 24 8
  let w3 := leAt b 32 8
  let row (o : Nat) (st : Int) (r : Nat) : Nat × Nat × Nat := (o, (((leAt b o 8 : Int) + st * r) % 2 ^ 58).toNat, w2 % 2 ^ 20 + 1)
  if pkOPC b = 4 then
    (List.range (w2 / 2 ^ 48 + 1)).map (row 8 (signed 32 w3)) ++ (List.range (w2 / 2 ^ 48 + 1)).map (row 16 (signed 32 (w3 / 2 ^ 32)))
  else []

/-- R304: an extent lies within one present range of a queue. -/
def inRange (q : Queue) (va n : Nat) : Bool :=
  q.ranges.toList.any (fun w => bit w 63 && decide ((rangeOf w).1 ≤ va ∧ va + n ≤ (rangeOf w).1 + (rangeOf w).2))

/-- R304: the first failing check of a packet: its code, the offset of the field and its value; of several fields that fail check 5, and of the rows of a COPY, see the log. (DEDUCED, unsafe: log 50.) (DESIGN CHOICE, unsafe: log 134.) -/
def validate (q : Queue) (b : List Byte) : Option (Nat × Nat × Nat) :=
  let opc := pkOPC b
  if 0xA < opc then some (0x01, 0, opc)
  else if !q.opmask.testBit opc then some (0x02, 0, opc)
  else
    match fieldError b with
    | some (o, v) => some (0x03, o, v)
    | none =>
      match (addressFields b).find? (fun f => f.2.1 % f.2.2.1 != 0) with
      | some f => some (0x06, f.1, f.2.1)
      | none =>
        match ((addressFields b).map (fun f => (f.1, f.2.1, f.2.2.2)) ++ copyRows b).find? (fun f => !inRange q f.2.1 f.2.2) with
        | some f => some (0x05, f.1, f.2.1)
        | none => none

/-! Issued packets -/

/-- An issued packet of a queue. -/
def goOf (s : State) (q id : Nat) : Option Going := (s.queueOf q).going.find? (fun g => g.pkt.id == id)

/-- Change an issued packet. -/
def updGo (s : State) (q id : Nat) (f : Going → Going) : State :=
  updQ s q (fun k => { k with going := k.going.map (fun g => if g.pkt.id = id then f g else g) })

/-- An issued packet waits for something. -/
def waitFor (s : State) (q id : Nat) (w : GoWait) : State := updGo s q id (fun g => { g with wait := w })

/-- An issued packet that blocks its queue. -/
def waitBlocked (s : State) (q id : Nat) (w : GoWait) : State := blockQueue (waitFor s q id w) q

/-- An issued packet goes on: its queue is no longer BLOCKED by it. -/
def goOn (s : State) (q id : Nat) (w : GoWait) : State := unblockQueue (waitFor s q id w) q

/-- An issued packet leaves. -/
def dropGo (s : State) (q id : Nat) : State :=
  walksPast (unblockQueue (updQ s q (fun k => { k with going := k.going.filter (fun g => g.pkt.id != id) })) q) (.queue q id)

/-- R302: RIDX advances by 1 and the packet is issued. -/
def issuePkt (s : State) (q : Nat) (p : Packet) (w : GoWait) : State :=
  updQ s q (fun k => { k with
    ridx := k.ridx + 1, cur := none
    going := k.going ++ [{ pkt := p, wait := w, data := [], got := [], getting := none, issued := s.reeveCyc, plid := none, frame := none }] })

/-- The cluster number under which the Reeve translates: it holds no translations of its own. (DEDUCED, unsafe: log 43.) -/
def reeveCl : Nat := 576

/-- R302, R211: the Reeve's accesses are Kernel accesses. -/
def reeveAccess (kind : AccKind) : Access := { kind := kind, task := false, fromSeq := false, plid := none, who := some .reeve }

/-- The Reeve's access for packet `id` of queue `q`, for which its walks are made (R226). -/
def pktAccess (q id : Nat) (kind : AccKind) : Access := { reeveAccess kind with walker := some (.queue q id) }

/-- R226: what the Reeve does for a packet once the walks of an access have been made; until then it waits. -/
def walkedFor (s : State) (q : Nat) (g : Going) (kind : AccKind) (ps : List (Nat × Nat)) (w : GoWait) (k : State) : State :=
  match walkNeeded s (pktAccess q g.pkt.id kind) none reeveCl g.pkt.root ps with
  | some va => askWalk (waitFor s q g.pkt.id w) (pktAccess q g.pkt.id kind) reeveCl g.pkt.root va
  | none => k

/-- R301: a LAUNCH that loads its own image. -/
def pkIMG (b : List Byte) : Bool := pkOPC b == 1 && leAt b 15 1 / 128 == 1

/-- R303: the placement that a launch loaded is evicted once nothing of it is left. (DEDUCED, safe: log 20.) -/
def evictTransient (s : State) (g : Going) : OpResult :=
  match g.plid with
  | some p => if pkIMG g.pkt.bytes then opGevict s (word p) none else .status s stOK
  | none => .status s stOK

/-- R303: the frame of a launch that ends is freed. -/
def freeLaunched (s : State) (g : Going) : State :=
  match g.plid, g.frame with
  | some p, some f =>
    let fr := s.frameOf p f
    if fr.launch.isSome && fr.st != .free then freeFrameNow (s.updFrame p f (fun r => { r with launch := none })) p f else s
  | _, _ => s

/-- R305: an issued packet fails: a launch gives back what it took. (DEDUCED, unsafe: log 48.) -/
def failGo (s : State) (q : Nat) (g : Going) (code fault off val : Nat) : State :=
  let s1 : State := dropGo s q g.pkt.id
  let s2 : State := match evictTransient (freeLaunched s1 g) g with
    | .done t _ => t
    | .wait t _ => t
  queueError s2 q (errorRecord code (pkOPC g.pkt.bytes) fault off g.pkt.idx val g.pkt.bytes)

/-- R305: an execution failure with a fault code. -/
def failFault (s : State) (q : Nat) (g : Going) (fault : Nat) : State := failGo s q g 0x09 fault 0 0

/-! Completion (R302, R303) -/

/-- R302: VEC is raised if INTR = 1, and the packet is over. -/
def finishPkt (s : State) (q : Nat) (g : Going) : State :=
  let s1 : State := dropGo s q g.pkt.id
  if leAt g.pkt.bytes 1 1 / 2 % 2 = 1 then s1.emitOut (.msix (leAt g.pkt.bytes 2 2 % 2 ^ 11)) else s1

/-- R302, R303: what follows the signal update: a launch frees its frame and evicts its transient placement. -/
def afterSignal (s : State) (q : Nat) (g : Going) : State :=
  match evictTransient (freeLaunched s g) g with
  | .done t _ => finishPkt t q g
  | .wait t _ => waitFor t q g.pkt.id .leave

/-- R302, R295: the signal update of a packet that has completed. -/
def performSignal (s : State) (q : Nat) (g : Going) : State :=
  let b := g.pkt.bytes
  match signalUpdate s (pktAccess q g.pkt.id .atomic) reeveCl g.pkt.root (.queue q g.pkt.id) (pkSVA b) (pkSOP b) (wordAt b 7) (fun _ => false)
      (fun st _ => (st, true)) with
  | .done t => if owed t (.queue q g.pkt.id) then waitFor t q g.pkt.id (.signal true) else afterSignal t q g
  | .wait t => waitFor t q g.pkt.id (.signal false)
  | .fault code va => failFault (beatsPast (countErr s (pktAccess q g.pkt.id .atomic) none reeveCl g.pkt.root va code) .reeve) q g code

/-- R302: a packet completes. -/
def completePkt (s : State) (q : Nat) (g : Going) : State :=
  let s1 : State := goOn s q g.pkt.id (.signal false)
  if pkSOP g.pkt.bytes = 0 then afterSignal s1 q g else performSignal s1 q g

/-- R302: the status word of a packet is stored at RVA, and the packet completes. -/
def storeStatus (s : State) (q : Nat) (g : Going) (st : Word) : State :=
  let va := leAt g.pkt.bytes 16 8
  walkedFor s q g .write [(va, 8)] (.store st false) <|
  match translateLine s (pktAccess q g.pkt.id .write) none reeveCl g.pkt.root va 8 with
  | .error code => failFault (countErr s (pktAccess q g.pkt.id .write) none reeveCl g.pkt.root va code) q g code
  | .ok (ln, _) =>
    match ln.loc, guestCopy s ln.loc with
    | .devreg _, _ => failFault s q g cPERMISSION
    | _, some line => waitFor (recallLine s line) q g.pkt.id (.store st false)
    | .peer p a, none => waitFor (remoteWrite s (.queue q g.pkt.id) p a ln.key 0 (leBytes 8 st.toNat)) q g.pkt.id (.store st true)
    | loc, none =>
      if lineHeld s loc then waitFor s q g.pkt.id (.store st false)
      else if lostFor s (reeveAccess .write) reeveCl loc then failFault (beatsPast s .reeve) q g cINTEGRITY
      else match writeLoc s ln.key loc (leBytes 8 st.toNat) with
      | some t => completePkt (beatsPast t .reeve) q g
      | none => failFault (countBad s loc) q g cINTEGRITY

/-- R302: an operation of a packet has given its status: GLOAD, GEVICT and DEBUG store it. -/
def opEnds (s : State) (q : Nat) (g : Going) (st : Word) : State :=
  if pkOPC g.pkt.bytes = 0xA then completePkt s q g else storeStatus s q g st

/-- What an operation of class P on behalf of a packet gives. -/
def packetOp (q : Nat) (g : Going) (r : OpResult) : State :=
  match r with
  | .done t st => opEnds t q g st
  | .wait t w => waitFor t q g.pkt.id (.op w)

/-- R302: the Reeve reads bytes under the queue root, each line by rows 2 to 5 of R253, but for a WAITSIG's location, which row 4 does not concern, and goes on with them;
lines of other packages are asked for one at a time. -/
def readFor (s : State) (q : Nat) (g : Going) (va n : Nat) (w : GoWait) (k : State → Going → List Byte → State) : State :=
  let got := match g.getting with
    | some x => x :: g.got
    | none => g.got
  let acc : Access := { pktAccess q g.pkt.id .read with plain := w == .waitsig }
  let hold : State := updGo s q g.pkt.id (fun x => { x with wait := w, got := got, getting := none })
  match walkNeeded s acc none reeveCl g.pkt.root (splitLines (n + 1) va n) with
  | some a => askWalk hold acc reeveCl g.pkt.root a
  | none =>
  match gatherLines s acc reeveCl none g.pkt.root got (splitLines (n + 1) va n) with
  | .err code a => failFault (beatsPast (countErr s acc none reeveCl g.pkt.root a code) .reeve) q g code
  | .held => hold
  | .need a m peer addr key =>
    let s1 : State := updGo s q g.pkt.id (fun x => { x with wait := w, got := got, getting := some (a, List.replicate m 0) })
    remoteRead s1 (.queue q g.pkt.id) peer addr key 0 m
  | .ok bs _ =>
    let h := { g with got := got, getting := none }
    k (updGo (beatsPast s .reeve) q g.pkt.id (fun _ => h)) h bs

/-! Issue (R302, R308) -/

/-- R308: the Reeve cycles that a queue has waited. -/
def waitOf (s : State) (q : Queue) : Nat := s.reeveCyc - q.since

/-- R308: the queue that the Reeve picks, and whether by its age. -/
def chooseQueue (s : State) : Option (Nat × Bool) :=
  let ready := s.queues.filter (fun q => queueReady q.2)
  let aged := ready.filter (fun q => decide (65536 ≤ waitOf s q.2))
  match leastBy (fun q : Nat × Queue => [q.2.since, q.1]) aged with
  | some q => some (q.1, true)
  | none =>
    let p := (ready.map (fun q => q.2.qprio)).foldl max 0
    (leastBy (fun q : Nat × Queue => [(q.1 + 4096 - s.reeveRr - 1) % 4096]) (ready.filter (fun q => q.2.qprio == p))).map (fun q => (q.1, false))

/-- R300, R302, R314, R374: the event that a packet is. -/
def packetEvent (b : List Byte) : Instr :=
  match pkOPC b with
  | 0x0 => .nopPacket
  | 0x1 => .launch
  | 0x2 => .waitsig
  | 0x3 => .signal
  | 0x4 => .copyPacket
  | 0x5 => .gloadPacket
  | 0x6 => .gevictPacket
  | 0x7 => .barrier
  | 0x8 => if leAt b 5 1 = 0 then .ringbindBind else .ringbindUnbind
  | 0x9 =>
    match leAt b 4 1 with
    | 0 => .debugPause
    | 1 => .debugResume
    | 2 => .debugStep
    | 3 => .debugWmark
    | 4 => .debugRwin
    | 5 => .debugRstep
    | _ => .debugWretire
  | _ => .prioPacket

/-- R296, R300: where the next packet of a queue stands. -/
def packetLoc (q : Queue) : Loc :=
  let a := field q.qbase 0 62 + 64 * (q.ridx.toNat % 2 ^ q.log2n)
  if field q.qbase 62 2 = 0 then .hbm a else .host (a % 2 ^ 44)

/-- R300: the 64 bytes of the next packet of a queue, or the fault that reading them meets. The ring in local HBM is read under HDMKEY. (DEDUCED, unsafe: log 49.) -/
def fetchPacket (s : State) (q : Queue) : Except Nat (List Byte) :=
  match packetLoc q with
  | .hbm a =>
    match checkTarget s (reeveAccess .read) s.dev.hdmkey 64 (.hbm a) with
    | some c => .error c
    | none =>
      match readHbm s s.dev.hdmkey a 64 with
      | some bs => .ok bs
      | none => .error cINTEGRITY
  | l =>
    match readLoc s 0 l 64 with
    | some bs => .ok bs
    | none => .error cINTEGRITY

/-- R302, R304, R308 PACKET_ISSUE: the Reeve picks a queue, fetches its next packet and validates it; the packet is then issued. (DEDUCED, unsafe: log 47.) -/
def execPacketIssue (s : State) : Result :=
  .next (match chooseQueue s with
    | none => s
    | some (q, aged) =>
      let k := s.queueOf q
      let s1 : State := { s with reeveCyc := s.reeveCyc + 1, reeveRr := if aged then s.reeveRr else q }.updQueue q (fun k => { k with since := s.reeveCyc + 1 })
      match fetchPacket s k with
      | .error c => queueError (if c = cINTEGRITY then countBad s1 (packetLoc k) else s1) q (errorRecord 0x09 0 c 0 k.ridx.toNat 0 [])
      | .ok b =>
        match validate k b with
        | some (code, off, val) => queueError s1 q (errorRecord code (pkOPC b) 0 off k.ridx.toNat val b)
        | none =>
          let p : Packet := { id := s.nextCmd, idx := k.ridx.toNat, root := (k.ptbase, k.asid), bytes := b }
          ({ s1 with nextCmd := s.nextCmd + 1 }.updQueue q (fun k => { k with cur := some p })).due (packetEvent b) { q := q, k := p.id })

/-! The meanings of packets -/

/-- R302: what a packet of a queue does: at its issue, and when it goes on after having waited. -/
def onPacket (s : State) (issue : State → Nat → Packet → State) (more : State → Nat → Going → State) : State :=
  let q := s.arg.q
  match goOf s q s.arg.k with
  | some g =>
    if owed s (.queue q g.pkt.id) then s
    else
      match g.wait with
      | .store st false => storeStatus s q g st
      | .store _ true => completePkt s q g
      | .signal false => performSignal s q g
      | .signal true => afterSignal s q g
      | .leave => afterSignal s q g
      | _ => more s q g
  | none =>
    match (s.queueOf q).cur with
    | some p => if p.id = s.arg.k then issue s q p else s
    | none => s

/-- A packet that completes at issue. -/
def completeAtIssue (s : State) (q : Nat) (p : Packet) : State :=
  let s1 : State := issuePkt s q p (.signal false)
  match goOf s1 q p.id with
  | some g => completePkt s1 q g
  | none => s1

/-- A packet goes on once it has been issued. -/
def issueThen (w : GoWait) (k : State → Nat → Going → State) (s : State) (q : Nat) (p : Packet) : State :=
  let s1 : State := issuePkt s q p w
  match goOf s1 q p.id with
  | some g => k s1 q g
  | none => s1

/-- Nothing more to do. -/
def noMore (s : State) (_q : Nat) (_g : Going) : State := s

/-- R302 NOP. -/
def execNopPacket (s : State) : Result := onUnit (okQ s.arg.q) (onPacket s completeAtIssue noMore)

/-- R302 SIGNAL. -/
def execSignal (s : State) : Result := onUnit (okQ s.arg.q) (onPacket s completeAtIssue noMore)

/-- R302 BARRIER: it waits for every earlier packet of the queue. -/
def execBarrier (s : State) : Result :=
  onUnit (okQ s.arg.q) (onPacket s (fun st q p => if (st.queueOf q).going.isEmpty then completeAtIssue st q p else blockQueue st q) noMore)

/-- R302: a wait condition, unsigned. -/
def condHolds (cond : Nat) (v w : Word) : Bool :=
  match cond with
  | 0 => v == w
  | 1 => v != w
  | 2 => decide (w.toNat ≤ v.toNat)
  | _ => decide (v.toNat < w.toNat)

/-- R302 WAITSIG: the queue is BLOCKED until a read of WVA satisfies the condition. -/
def execWaitsig (s : State) : Result :=
  onUnit (okQ s.arg.q) (onPacket s (issueThen .waitsig (fun st q g => waitBlocked st q g.pkt.id .waitsig)) noMore)

/-- R302 WAITSIG_SATISFIED: a read of WVA by the waiting packet; where it satisfies the condition, the packet completes. -/
def execWaitsigSatisfied (s : State) : Result :=
  onUnit (okQ s.arg.q) (
    match goOf s s.arg.q s.arg.k with
    | none => s
    | some g =>
      if g.wait != .waitsig || owed s (.queue s.arg.q g.pkt.id) then s
      else
        readFor s s.arg.q g (leAt g.pkt.bytes 8 8) 8 .waitsig (fun st h bs =>
          if condHolds (leAt g.pkt.bytes 4 1) (word (leNat bs)) (wordAt g.pkt.bytes 2) then completePkt st s.arg.q h
          else updGo st s.arg.q h.pkt.id (fun x => { x with got := [], getting := none })))

/-- R299, R302: the packet that a BLOCKED queue holds back may be issued. -/
def mayIssue (q : Queue) : Bool :=
  match q.cur with
  | some p => if pkOPC p.bytes = 7 then q.going.isEmpty else q.going.all (fun g => pkOPC g.pkt.bytes != 1)
  | none => false

/-- R299 QUEUE_UNBLOCK: the blocking condition of a held packet has ended: the queue is ACTIVE and the packet is issued. -/
def execQueueUnblock (s : State) : Result :=
  onUnit (okQ s.arg.q) (
    let k := s.queueOf s.arg.q
    match k.cur with
    | some p =>
      if k.st == .blocked && mayIssue k then
        (s.updQueue s.arg.q (fun k => { k with st := .active })).due (packetEvent p.bytes) { q := s.arg.q, k := p.id }
      else s
    | none => s)

end Sys2Proof.Machine
end

