-- ==== Sys2Proof/Machine/Packets.lean ====
section
/-! DEFINITION. The packets that act on placements, frames, copy engines and rings (R302, R303, R314, R340, R348, R355, R374), and the Reeve's evictions. -/

namespace Sys2Proof.Machine

/-- The sameness of a placement's root and a packet's queue root (R302, R303, R340, R374). -/
def rootIs (s : State) (p : Nat) (g : Going) : Bool := rootOf s p == some g.pkt.root

/-! COPY (R302) -/

/-- R302: the command that a COPY packet gives a copy engine: w0 to w3 of its body, SCOPE SYSTEM, RET 15. -/
def copyCommand (s : State) (q : Nat) (g : Going) : CeCmd :=
  let b := g.pkt.bytes
  { id := s.nextCmd, pos := 0, iter0 := 0, spec0 := 0, spec := 0, code := 0, fva := 0
    words := [wordAt b 1, wordAt b 2, wordAt b 3, wordAt b 4, word (at' 5 4 + 15), 0, 0, 0]
    sender := none, plid := 0, root := some g.pkt.root, signal := false, tag := tokZero, win := 0, elemField := 0, cs := 0
    queue := some (q, g.pkt.id), got := [], getting := none, signaled := false }

/-- R302: a COPY packet enters the copy engine of cluster CLU when that has accepted fewer than 256 commands. -/
def copyEnters (s : State) (q : Nat) (g : Going) : State :=
  let clu := leAt g.pkt.bytes 4 2
  let c := clu / 128 % 8 * 96 + clu % 128
  if (s.clusterOf c).ce.countP (fun y => !cyStaged s y) < 256 then
    waitFor ({ s with nextCmd := s.nextCmd + 1 }.updCluster c (fun k => { k with ce := k.ce ++ [copyCommand s q g] })) q g.pkt.id .copy
  else waitFor s q g.pkt.id .room

/-- R302 COPY. -/
def execCopyPacket (s : State) : Result :=
  onUnit (okQ s.arg.q) (onPacket s (issueThen .room copyEnters) (fun st q g => if g.wait = .room then copyEnters st q g else st))

/-- R302: a COPY packet learns how its command ended. -/
def copyEnded (y : CeCmd) (s : State) (q : Nat × Nat) : State :=
  match goOf s q.1 q.2 with
  | some g => if y.code = 0 then completePkt s q.1 g else failFault s q.1 g y.code
  | none => s

/-- R290, R291 CE_COMMAND_END: command `k` of cluster `c` goes on: with piece `n`, its signal update, or its end. A command whose placement has no root stops with
TRANSLATION (R223). -/
def execCeCommandEnd (s : State) : Result :=
  onUnit (okC s.arg.c) (
    match (s.clusterOf s.arg.c).ce.find? (fun y => y.id == s.arg.k) with
    | none => s
    | some y =>
      if !cyGoesOn s s.arg.c y then s
      else
        match y.root with
        | some r => cyStep s s.arg.c y s.arg.n r (copyEnded y)
        | none =>
          if y.code = 0 && !cyUnstarted s s.arg.c y then stopCmd s s.arg.c y cTRANSLATION (cyPiece y 0).1
          else cyStep s s.arg.c y s.arg.n (0, 0) (copyEnded y))

/-! GLOAD and GEVICT (R302) -/

/-- R302: one attempt to place the image of a GLOAD packet, or its wait for a release (R86), counted in the Reeve's cycles. -/
def gloadAttempt (s : State) (q : Nat) (g : Going) : State :=
  let b := g.pkt.bytes
  let wait := leAt b 4 1 % 2 == 1
  let oneDie := leAt b 4 1 / 2 % 2 == 1
  let w (tries : Nat) : SeqWait := .place 0 [] oneDie wait tries s.releases (word g.issued)
  if s.pa.isSome then waitFor s q g.pkt.id (.op (w 0))
  else
    match compactStep s g.data oneDie (some g.pkt.root) false (.packet q g.pkt.id) with
    | .placed t p => waitFor t q g.pkt.id (.op (.filling 0 p (statusWord stOK 0 p)))
    | .moving t => waitFor t q g.pkt.id (.op (w 1))
    | .none => if wait then waitFor s q g.pkt.id (.op (w 2)) else opEnds s q g noPlace

/-- R304: the image bytes beyond the header lie in a range, or the packet fails with RANGE. -/
def imageInRange (s : State) (q : Nat) (va n : Nat) : Bool := inRange (s.queueOf q) va n

/-- R302, R96, R303: the image of a packet is read: its header first, checked, then all of it, checked; `bad` takes the status of a rejected one. -/
def readImage (s : State) (q : Nat) (g : Going) (bad : State → Going → Reject → State) (k : State → Going → State) : State :=
  let va := leAt g.pkt.bytes 8 8 % 2 ^ 58
  readFor s q g va 64 .image (fun s1 g1 h =>
    if !headerOk h then bad s1 g1 headerReject
    else if !imageInRange s1 q va (imSIZE h) then failGo s1 q g1 0x05 0 8 va
    else
      readFor s1 q g1 va (imSIZE h) .image (fun s2 g2 bs =>
        match imageFault bs with
        | some r => bad s2 g2 r
        | none =>
          let g3 := { g2 with data := bs, got := [], getting := none }
          k (updGo s2 q g.pkt.id (fun _ => g3)) g3))

/-- R302 GLOAD. (DEDUCED, unsafe: log 34.) -/
def gloadRead (s : State) (q : Nat) (g : Going) : State :=
  readImage s q g (fun st h r => opEnds st q h (rejectStatus r)) (fun st h => gloadAttempt st q h)

/-- R302, R349: a GLOAD packet goes on: its image is read further, or its contexts have been written. -/
def gloadMore (s : State) (q : Nat) (g : Going) : State :=
  match g.wait with
  | .image => gloadRead s q g
  | .op (.filling _ p st) => if beingFilled s p then s else opEnds s q g st
  | _ => s

/-- R302 GLOAD. -/
def execGloadPacket (s : State) : Result := onUnit (okQ s.arg.q) (onPacket s (issueThen .image gloadRead) gloadMore)

/-- R302 GEVICT: another root than the queue's stores BUSY. -/
def gevictNow (s : State) (q : Nat) (g : Going) : State :=
  packetOp q g (opGevict s (word (leAt g.pkt.bytes 8 2)) (some (some g.pkt.root)))

/-- R302 GEVICT. -/
def execGevictPacket (s : State) : Result :=
  onUnit (okQ s.arg.q) (onPacket s (issueThen (.op .again) gevictNow) gevictNow)

/-! PRIO (R340) -/

/-- R340: the packet's placement has the queue root, and its priority is sent. -/
def prioNow (s : State) (q : Nat) (g : Going) : State :=
  let p := leAt g.pkt.bytes 8 2
  if !rootIs s p g then failFault s q g cPERMISSION
  else packetOp q g (opCprio s 0 (word p) (word (leAt g.pkt.bytes 4 1)))

/-- R340: it completes when every live context has landed it. -/
def prioMore (s : State) (q : Nat) (g : Going) : State :=
  match g.wait with
  | .op (.prio _ p) => if prioDue s p then s else opEnds s q g (statusWord stOK 0 0)
  | _ => s

/-- R340 PRIO. -/
def execPrioPacket (s : State) : Result := onUnit (okQ s.arg.q) (onPacket s (issueThen (.op .again) prioNow) prioMore)

/-! DEBUG (R374) -/

/-- R374: the fields of a DEBUG packet. -/
def dbName (b : List Byte) : Word := word (leAt b 8 4)
def dbN (b : List Byte) : Nat := leAt b 12 4
def dbFlag (b : List Byte) (k : Nat) : Nat := leAt b 5 1 / 2 ^ k % 2

/-- R374: a number of 16 bits with a flag above it, as RWIN and WRETIRE take it; more bits than the number has are left where the instruction rejects them. -/
def dbWindow (b : List Byte) (k : Nat) : Word := word (dbN b % 2 ^ 16 + at' (dbFlag b k) 16 + at' (dbN b / 2 ^ 16) 17)

/-- R374: the operand of FSTEP. -/
def dbStep (b : List Byte) (mode : Nat) : Word :=
  let w := leAt b 24 2
  word (at' mode 62 + dbN b + (if mode = 0 then at' (w % 128) 32 + at' (w / 128 % 8) 39 + at' (w / 2 ^ 10 % 16) 42 + at' (w / 2 ^ 14) 46 else 0))

/-- R374: the home cluster of the packet's frame. -/
def dbHome (s : State) (b : List Byte) : Nat := (s.frameOf (namePLID (dbName b)) (nameFRAME (dbName b))).home

/-- R374: a recorder operation under the queue's root. (DEDUCED, unsafe: log 57.) -/
def debugNow (op : State → Going → OpResult) (s : State) (q : Nat) (g : Going) : State :=
  let p := namePLID (dbName g.pkt.bytes)
  if (s.placeOf p).isSome && !rootIs s p g then failFault s q g cPERMISSION else packetOp q g (op s g)

/-- R374: a waiting recorder operation goes on: a pause that has landed is over; another operation is performed again. -/
def debugMore (op : State → Going → OpResult) (s : State) (q : Nat) (g : Going) : State :=
  match g.wait with
  | .op (.fstep _ p f false _ _ _) => if pauseDue s p f then s else opEnds s q g (statusWord stOK 0 0)
  | .op (.fstep _ p f true ve n base) => if stepOver s p f ve n base then debugNow op s q g else s
  | .op .again => debugNow op s q g
  | _ => s

/-- R374: a DEBUG packet of an operation. -/
def debugPacket (s : State) (op : State → Going → OpResult) : Result :=
  onUnit (okQ s.arg.q) (onPacket s (issueThen (.op .again) (debugNow op)) (debugMore op))

/-- The step that a packet already waits for. -/
def underStep (g : Going) : Option SeqWait :=
  match g.wait with
  | .op w => some w
  | _ => none

/-- R374, R371: FSTEP in a mode. -/
def dbFstep (mode : Nat) (s : State) (g : Going) : OpResult := opFstep s 0 (underStep g) (dbName g.pkt.bytes) (dbStep g.pkt.bytes mode)
/-- R374, R371: WMARK with the frame's home as the issuing cluster. -/
def dbWmark (s : State) (g : Going) : OpResult :=
  opWmark s (dbHome s g.pkt.bytes) (dbName g.pkt.bytes) (word (leAt g.pkt.bytes 6 1 + at' (dbFlag g.pkt.bytes 2) 8))
/-- R374, R371: RWIN. -/
def dbRwin (s : State) (g : Going) : OpResult := opRwin s 0 (dbName g.pkt.bytes) (dbWindow g.pkt.bytes 0)
/-- R374, R371: RSTEP. -/
def dbRstep (s : State) (g : Going) : OpResult := opRstep s (dbName g.pkt.bytes) (word (dbN g.pkt.bytes))
/-- R374, R371: WRETIRE. -/
def dbWretire (s : State) (g : Going) : OpResult := opWretire s (dbName g.pkt.bytes) (dbWindow g.pkt.bytes 1)

/-- R374 PAUSE. -/
def execDebugPause (s : State) : Result := debugPacket s (dbFstep 1)
/-- R374 RESUME. -/
def execDebugResume (s : State) : Result := debugPacket s (dbFstep 2)
/-- R374 STEP. -/
def execDebugStep (s : State) : Result := debugPacket s (dbFstep 0)
/-- R374 WMARK. -/
def execDebugWmark (s : State) : Result := debugPacket s dbWmark
/-- R374 RWIN. -/
def execDebugRwin (s : State) : Result := debugPacket s dbRwin
/-- R374 RSTEP. -/
def execDebugRstep (s : State) : Result := debugPacket s dbRstep
/-- R374 WRETIRE. -/
def execDebugWretire (s : State) : Result := debugPacket s dbWretire

/-! RINGBIND (R314) -/

/-- R314: the fields of a RINGBIND. -/
def rbRING (b : List Byte) : Nat := leAt b 4 1
def rbLOG2 (b : List Byte) : Nat := leAt b 16 1
def rbName (b : List Byte) : Word := wordAt b 4

/-- The lines of the ring's range. -/
def rbLines (b : List Byte) : List (Nat × Nat) := splitLines (129 + 2 ^ rbLOG2 b) (leAt b 8 8) (128 + 2 ^ rbLOG2 b)

/-- R314, R309: the range of the ring maps through RING leaves onto contiguous scratchpad of one cluster: that cluster and its first byte; none, with the fault of the first
line that does not. -/
def ringRange (s : State) (q : Nat) (g : Going) : Except (Option Nat) (Nat × Nat) :=
  let one (p : Nat × Nat) : Except Nat Line :=
    match translateLine s (pktAccess q g.pkt.id .read) none reeveCl g.pkt.root p.1 p.2 with
    | .error c => .error c
    | .ok (ln, _) => .ok ln
  let rs := (rbLines g.pkt.bytes).map one
  match rs.findSome? (fun r => match r with
    | .error c => some c
    | .ok _ => none) with
  | some c => .error (some c)
  | none =>
    let at'' := rs.filterMap (fun r => match r with
      | .ok ln => match ln.loc with
        | .ring c b => some (c, b)
        | _ => none
      | .error _ => none)
    match at'' with
    | [] => .error none
    | (c, b) :: _ =>
      if at''.length == rs.length && (List.zip (List.range at''.length) at'').all (fun p => p.2 == (c, b + 128 * p.1)) then .ok (c, b)
      else .error none

/-- R314, R305: a breach of a BIND: code 0x09; where no rule names the fault code, byte 2 is a free value. (DESIGN CHOICE, safe: log 52.) -/
def bindBreach (s : State) (q : Nat) (g : Going) (code : Option Nat) : State :=
  match code with
  | some c => failFault s q g c
  | none => failFault s.draw q g (field (Config.freeWord s.free) 0 8)

/-- R309: the CFG word of a control block. -/
def ringCfg (lg policy key batch : Nat) : Nat := lg + at' policy 8 + at' key 16 + at' (batch - 1) 32

/-- R314: the binding. -/
def bindRing (s : State) (g : Going) (c b : Nat) : State :=
  let k := g.pkt.bytes
  let nm := rbName k
  let p := namePLID nm
  let f := nameFRAME nm
  let r : Ring := { cl := c, ctl := b, lg := rbLOG2 k, policy := leAt k 17 1, key := leAt k 18 2, batch := leAt k 20 2, tmo := leAt k 24 4
                    iter := field nm 48 16, entry := field nm 24 6, frame := f, plid := p, count := 0, pendingArrive := [], unbinding := none }
  let block := List.replicate 24 (0 : Byte) ++ leBytes 8 (ringCfg r.lg r.policy r.key r.batch) ++ List.replicate 96 0
  let s1 : State := s.updCluster c (fun x => { x with com := memWrite x.com b block, comErr := coverErr x.comErr 8 b 128 })
  let s2 : State := { s1 with rings := Tab.set s1.rings (rbRING k) r }
  let s3 : State := s2.updFrame p f (fun x => { x with ringHolds := x.ringHolds + 1 })
  touch s3 (s3.frameOf p f).home p f (s3.frameOf p f).gen

/-- R314 BIND. -/
def bindNow (s : State) (q : Nat) (g : Going) : State :=
  let nm := rbName g.pkt.bytes
  let p := namePLID nm
  let fr := s.frameOf p (nameFRAME nm)
  if (Tab.get? s.rings (rbRING g.pkt.bytes)).isSome then bindBreach s q g none
  else
    walkedFor s q g .read (rbLines g.pkt.bytes) (.op .again) <|
    match ringRange s q g with
    | .error c => bindBreach s q g c
    | .ok (c, b) =>
      match s.placeOf p with
      | none => bindBreach s q g none
      | some pl =>
        if !rootIs s p g || !(fr.st == .opened || fr.st == .running) || decide (pl.entries.length ≤ field nm 24 6) then bindBreach s q g none
        else completePkt (bindRing s g c b) q g

/-- R314 BIND. -/
def execRingbindBind (s : State) : Result := onUnit (okQ s.arg.q) (onPacket s (issueThen (.op .again) bindNow) bindNow)

/-- R314: a binding ends once no ARRIVE of it stands at the edge port: its hold is released. -/
def ringLeaves (s : State) (n : Nat) (r : Ring) : State :=
  let s1 : State := { s with rings := Tab.del s.rings n }
  let s2 : State := s1.updFrame r.plid r.frame (fun x => { x with ringHolds := x.ringHolds - 1 })
  left s2 (s2.frameOf r.plid r.frame).home r.plid r.frame (s2.frameOf r.plid r.frame).gen

/-- R314 UNBIND: delivery stops; the hold goes with the last ARRIVE. (DEDUCED, unsafe: log 53.) -/
def unbindNow (s : State) (q : Nat) (g : Going) : State :=
  let n := rbRING g.pkt.bytes
  match Tab.get? s.rings n with
  | none => completePkt s q g
  | some r =>
    if r.unbinding.isSome && r.unbinding != some (q, g.pkt.id) then waitFor s q g.pkt.id .unbind
    else if r.pendingArrive.isEmpty then completePkt (ringLeaves s n r) q g
    else waitFor { s with rings := Tab.set s.rings n { r with unbinding := some (q, g.pkt.id) } } q g.pkt.id .unbind

/-- R314 UNBIND. -/
def execRingbindUnbind (s : State) : Result := onUnit (okQ s.arg.q) (onPacket s (issueThen .unbind unbindNow) unbindNow)

/-! LAUNCH (R303, R348, R355) -/

/-- R301: the fields of a LAUNCH. -/
def lnPRIO (b : List Byte) : Nat := leAt b 4 1
def lnMODE (b : List Byte) : Nat := leAt b 5 1 % 4
def lnONEDIE (b : List Byte) : Bool := leAt b 5 1 / 4 % 2 == 1
def lnNARG (b : List Byte) : Nat := leAt b 6 1
def lnCSP (b : List Byte) : Nat := leAt b 7 1
def lnSPVA (b : List Byte) : Nat := leAt b 24 8
def lnSPSIZE (b : List Byte) : Nat := 4096 * leAt b 32 4
/-- R355: LOG2SZ of the ring, 0 meaning 20. -/
def lnLOG2 (b : List Byte) : Nat := if leAt b 36 1 = 0 then 20 else leAt b 36 1

/-- R303: argument `k` as TINJ's g[a] and payload. -/
def lnArg (data : List Byte) (k : Nat) : Word × Word := (wordAt data (2 * k), wordAt data (2 * k + 1))

/-- R303: an argument entry that TINJ would not answer with BADARG. -/
def argOk (pl : Placement) (a : Word × Word) : Bool :=
  let w := a.1
  let k := field w 31 3
  w &&& ~~~0xFFFF001FBF000000#64 == 0 && (k == 0 || k == 2 || k == 6) && tinjArgsOk w a.2 && decide (field w 24 6 < pl.entries.length)

/-- R303: the argument entries are injected in order from `k` on, LAST on the final one; one that cannot enter waits. -/
def launchInject (s : State) (q : Nat) (g : Going) (p f : Nat) : Nat → Nat → State
  | 0, _ => waitFor (releaseHold s p f) q g.pkt.id .launch
  | n + 1, k =>
    match s.placeOf p with
    | none => s
    | some pl =>
      let a := lnArg g.data k
      let w := pl.entries.getD (field a.1 24 6) 0
      if (s.frameOf p f).st != .opened then waitFor s q g.pkt.id (.inject k)
      else
        match inject s p (entVelem w) (chanEntry (field a.1 24 6)) (tinjToken s p f a.1 a.2 (entPORT w) none) with
        | .refused t => waitFor t q g.pkt.id (.inject k)
        | .taken t => launchInject t q g p f n (k + 1)

/-- R355: the rings that the Reeve has given and that have not returned. -/
def poolRings (s : State) : List (Nat × Nat) :=
  s.places.flatMap (fun p => (p.2.frames.filter (fun (f : Nat × Frame) => f.2.st != .free && f.2.log.pooled)).map (fun f => (f.2.log.base, 2 ^ f.2.log.lg)))

/-- R355: the lowest address of the log pool that is aligned to the ring's size and overlaps no given ring. -/
def poolRing (s : State) (lg : Nat) : Option Nat :=
  let base := s.dev.lpbase
  let n := 2 ^ lg
  let up (a : Nat) : Nat := (a + n - 1) / n * n
  let fit (a : Nat) : Bool := decide (base ≤ a ∧ a + n ≤ base + s.dev.lpsize) && (poolRings s).all (fun r => !rangesMeet a n r.1 r.2)
  ((up base :: (poolRings s).map (fun r => up (r.1 + r.2))).filter fit).foldl (fun m a => match m with
    | none => some a
    | some b => some (min a b)) none

/-- R355: the frame's ring is taken from the log pool, or the queue stays BLOCKED; then the arguments enter. -/
def launchRing (s : State) (q : Nat) (g : Going) (p f : Nat) : State :=
  let b := g.pkt.bytes
  if lnMODE b = 0 then launchInject (goOn s q g.pkt.id (.inject 0)) q g p f (lnNARG b) 0
  else
    match poolRing s (lnLOG2 b) with
    | none => waitBlocked s q g.pkt.id .ring
    | some a =>
      let s1 : State := startLog s p f (lnMODE b) a (lnLOG2 b) true
      launchInject (goOn s1 q g.pkt.id (.inject 0)) q g p f (lnNARG b) 0

/-- R303: the HBM region that SPVA names: it maps through one HBM leaf. -/
def spillRegion (s : State) (q : Nat) (g : Going) : Option Nat :=
  let va := lnSPVA g.pkt.bytes
  let n := lnSPSIZE g.pkt.bytes
  if n = 0 then some 0
  else
    match translateLine s (pktAccess q g.pkt.id .write) none reeveCl g.pkt.root va 128 with
    | .error _ => none
    | .ok (ln, lf) =>
      match ln.loc with
      | .hbm a => if pteTarget lf.pte = 0 ∧ va % pageSize lf.level + n ≤ pageSize lf.level ∧ hbmRange s a n then some a else none
      | _ => none

/-- R303, R226: what a launch does once the walk for its spill region has been made. -/
def regionWalked (s : State) (q : Nat) (g : Going) (w : GoWait) (k : State) : State :=
  if lnSPSIZE g.pkt.bytes = 0 then k else walkedFor s q g .write [(lnSPVA g.pkt.bytes, 128)] w k

/-- The cluster of virtual plot 0 of a placement (R303): where it stands, or where its image is counted. -/
def homeOfPlot0 (pl : Placement) : Nat :=
  match pl.map.getD 0 none with
  | some pc => pc.1 / 4
  | none => ((pl.saved.find? (fun v => v.vp == 0)).map (·.cl)).getD 0

/-- R303: FALLOC for the launch; NOFRAME and NOSPILL keep the queue BLOCKED. -/
def launchAlloc (s : State) (q : Nat) (g : Going) (p : Nat) : State :=
  let b := g.pkt.bytes
  regionWalked s q g .alloc <|
  match s.placeOf p, spillRegion s q g with
  | none, _ => failFault s q g cPERMISSION
  | _, none => failFault s q g cTRANSLATION
  | some pl, some a =>
    match allocFrame s (homeOfPlot0 pl) p (lnCSP b) false 0 a (lnSPSIZE b) with
    | .error st => if st = stNOPLID then failFault s q g cPERMISSION else waitBlocked s q g.pkt.id .alloc
    | .ok (t, f) =>
      let h := { g with frame := some f }
      let t1 : State := updGo (t.updFrame p f (fun r => { r with launch := some (q, g.pkt.id) })) q g.pkt.id (fun _ => h)
      launchRing t1 q h p f

/-- R303: a launch has its placement, whose contexts have been written (R349): its arguments are read and checked, PRIO is set, and the frame is allocated. -/
def launchArgs (s : State) (q : Nat) (g : Going) (p : Nat) : State :=
  let b := g.pkt.bytes
  if pkIMG b && beingFilled s p then waitFor s q g.pkt.id .args
  else if (s.placeOf p).isNone || !rootIs s p g then failFault s q g cPERMISSION
  else
    readFor s q g (leAt b 16 8) (16 * lnNARG b) .args (fun s1 g1 bs =>
      match s1.placeOf p with
      | none => failFault s1 q g1 cPERMISSION
      | some pl =>
        let h := { g1 with data := bs, got := [], getting := none }
        let s2 : State := updGo s1 q g.pkt.id (fun _ => h)
        if !(List.range (lnNARG b)).all (fun k => argOk pl (lnArg bs k)) then failFault s2 q h stBADARG
        else
          regionWalked s2 q h .args <|
          if (spillRegion s2 q h).isNone then failFault s2 q h cTRANSLATION
          else if lnMODE b != 0 && decide (s2.dev.lpsize < 2 ^ lnLOG2 b) then failFault s2 q h cLOGFULL
          else launchAlloc (sendPrio s2 p (lnPRIO b)) q h p)

/-- R303: the launch goes on with a placement. -/
def launchOn (s : State) (q : Nat) (g : Going) (p : Nat) : State :=
  let h := { g with plid := some p, wait := .args }
  launchArgs (unblockQueue (updGo s q g.pkt.id (fun _ => h)) q) q h p

/-! Eviction (R348) -/

/-- R338, R348: the priority of a plot-context: its placement's current PRIO, or the highest of its contexts where the placement has none. (DEDUCED, unsafe: log 55.) -/
def plotPrio (s : State) (pl : Placement) (pc : Nat × Nat) : Nat := pl.prio.getD (((List.range 4).map (fun e => ccwPRIO (s.ctxOf (4 * pc.1 + e) pc.2).ccw)).foldl max 0)

/-- R348: the candidates of an eviction for a priority, in their order: placement, virtual plot and plot-context. -/
def candidates (s : State) (prio : Nat) : List (Nat × Nat × (Nat × Nat)) :=
  let rs := (residents s).filterMap (fun r => match s.placeOf r.1 with
    | some pl => if pl.root.isSome && pl.moving.isNone && !pl.saving.any (fun w => w.1 == r.2.1) then some (plotPrio s pl r.2.2, r) else none
    | none => none)
  (List.range prio).flatMap (fun n => (rs.filter (fun r => r.1 == n)).map (·.2))

/-- R348: the images that the eviction pool holds. -/
def poolImages (s : State) : List (Nat × Nat) :=
  s.places.flatMap (fun p => (p.2.saved.filter (fun v => v.evicted.isSome)).map (fun v => (v.addr, v.size)))

/-- R348: the free gaps of the eviction pool in ascending order: address, a multiple of 64, and size. -/
def poolGaps (s : State) : List (Nat × Nat) :=
  let lo := s.dev.epbase
  let hi := lo + s.dev.epsize
  let up (a : Nat) : Nat := (a + 63) / 64 * 64
  let gap (a : Nat) : Option (Nat × Nat) :=
    if (poolImages s).any (fun r => decide (r.1 ≤ a ∧ a < r.1 + r.2)) then none
    else
      let stop := ((poolImages s).filter (fun r => decide (a ≤ r.1))).foldl (fun m r => min m r.1) hi
      if a < stop then some (a, stop - a) else none
  let gs := (up lo :: (poolImages s).map (fun r => up (r.1 + r.2))).eraseDups.filterMap gap
  gs.foldl (fun (l : List (Nat × Nat)) (g : Nat × Nat) => l.takeWhile (fun h => decide (h.1 < g.1)) ++ g :: l.dropWhile (fun h => decide (h.1 < g.1))) []

/-- R341, R348: a save of this plot may begin now. -/
def evictionBegins (s : State) (p v : Nat) : Bool :=
  match s.placeOf p with
  | some pl => pl.moving.isNone && !beingFilled s p && pl.saving.all (fun w => w.1 != v) && !pl.frames.any (fun f => f.2.st == .rolling)
      && (plotContext pl v).isSome
  | none => false

/-- R348: the evicted plots, earliest first: placement and plot. -/
def evictedPlots (s : State) : List (Nat × Saved) :=
  let all := s.places.flatMap (fun p => (p.2.saved.filter (fun v => v.evicted.isSome)).map (fun v => (p.1, v)))
  (List.range s.evictions).flatMap (fun n => all.filter (fun r => r.2.evicted.any (fun k => k.1 == n)))

/-- R348: the restore of one evicted plot begins, if it finds room and a plot-context has been released since its eviction. -/
def restoreEvicted (s : State) (r : Nat × Saved) : State :=
  match s.placeOf r.1 with
  | none => s
  | some pl =>
    if r.2.filling.isSome || !r.2.evicted.any (fun k => decide (k.2 < s.releases)) then s
    else match tryRestore s r.1 pl r.2 r.2.addr none with
    | .ok t => t
    | _ => s

/-- R348: after a release of plot-contexts the Reeve tries to restore each evicted plot. -/
def restoreAll (s : State) : State :=
  if s.restored = s.releases then s else { (evictedPlots s).foldl restoreEvicted s with restored := s.releases }

/-- The priority of an evicted plot's placement. -/
def evictedPrio (s : State) (r : Nat × Saved) : Nat :=
  match s.placeOf r.1 with
  | some pl => pl.prio.getD r.2.prioAt
  | none => 0

/-- R303: an attempt of a launch has failed and there is nothing left to evict. -/
def launchFails (s : State) (q : Nat) (g : Going) (tries : Nat) : State :=
  if 16 ≤ tries + 1 ∨ 2 ^ 27 ≤ s.reeveCyc - g.issued then failFault s q g cPLACEMENT
  else waitBlocked s q g.pkt.id (.place (tries + 1) (some s.releases))

/-- R348: the next candidate of an eviction for a launch begins to drain, or there is none. -/
def launchEvict (s : State) (q : Nat) (g : Going) (tries : Nat) (skipped : List (Nat × Nat)) : State :=
  match (candidates s (lnPRIO g.pkt.bytes)).find? (fun r => !skipped.contains (r.1, r.2.1)) with
  | none => launchFails s q g tries
  | some (p, v, pc) =>
    let s1 : State := if evictionBegins s p v then startSave s p v none pc else s
    waitBlocked s1 q g.pkt.id (.evict tries p v skipped)

/-- R303, R86, R348: an attempt to place a launch's image, compaction and eviction included. (DEDUCED, unsafe: log 55.) -/
def launchPlace (s : State) (q : Nat) (g : Going) (tries : Nat) : State :=
  if s.pa.isSome then waitBlocked s q g.pkt.id (.place tries none)
  else
    let s1 : State := if (evictedPlots s).any (fun r => decide (lnPRIO g.pkt.bytes < evictedPrio s r)) then restoreAll s else s
    match compactStep s1 g.data (lnONEDIE g.pkt.bytes) (some g.pkt.root) true (.packet q g.pkt.id) with
    | .placed t p => launchOn t q g p
    | .moving t => waitBlocked t q g.pkt.id (.compact tries)
    | .none => launchEvict s1 q g tries []

/-- R303: the issue of a launch. -/
def launchStart (s : State) (q : Nat) (g : Going) : State :=
  if pkIMG g.pkt.bytes then
    readImage s q g (fun st h r => failFault st q h r.code) (fun st h => launchPlace st q h 0)
  else launchOn s q g (leAt g.pkt.bytes 8 2)

/-- R303: a launch that waits goes on. -/
def launchMore (s : State) (q : Nat) (g : Going) : State :=
  match g.wait, g.plid, g.frame with
  | .image, _, _ => launchStart s q g
  | .args, some p, _ => launchArgs s q g p
  | .inject k, some p, some f => launchInject s q g p f (lnNARG g.pkt.bytes - k) k
  | _, _, _ => s

/-- R302, R303 LAUNCH: with ORDER = 1 it waits for every earlier LAUNCH of the queue. -/
def execLaunch (s : State) : Result :=
  onUnit (okQ s.arg.q) (onPacket s (fun st q p =>
    if leAt p.bytes 1 1 % 2 = 1 && (st.queueOf q).going.any (fun g => pkOPC g.pkt.bytes == 1) then blockQueue st q
    else issueThen .image launchStart st q p) launchMore)

/-- R303, R355 LAUNCH_RETRY: a launch that waits for room, a frame, spill pages or a log ring tries again. -/
def execLaunchRetry (s : State) : Result :=
  onUnit (okQ s.arg.q) (
    match goOf s s.arg.q s.arg.k with
    | none => s
    | some g =>
      match g.wait, g.plid, g.frame with
      | .place tries since, _, _ => if s.pa.isNone && since != some s.releases then launchPlace s s.arg.q g tries else s
      | .alloc, some p, _ => launchAlloc s s.arg.q g p
      | .ring, some p, some f => launchRing s s.arg.q g p f
      | _, _, _ => s)

/-- R303 LAUNCH_COMPLETION: the frame of launch `k` of queue `q` is COMPLETE (`ok`), or a handler freed it before. -/
def execLaunchCompletion (s : State) : Result :=
  onUnit (okQ s.arg.q) (
    match goOf s s.arg.q s.arg.k with
    | none => s
    | some g =>
      match g.wait with
      | .launch | .inject _ | .ring => if s.arg.ok then completePkt s s.arg.q g else failGo s s.arg.q g 0x08 0 0 0
      | _ => s)

/-- R348: the save that the Reeve has begun of a plot, if any, is given up. -/
def dropEviction (s : State) (p v : Nat) : State :=
  match s.placeOf p with
  | some pl =>
    match plotContext pl v with
    | some pc => if pl.saving.contains (v, none) then abandonSave s p v pc else s
    | none => s
  | none => s

/-- R303 LAUNCH_BUDGET_EXPIRY: 2^27 Reeve cycles have passed since the issue of a launch that has not been placed: whether it waits for a release, for the compaction or for
an eviction, which is given up. -/
def execLaunchBudgetExpiry (s : State) : Result :=
  onUnit (okQ s.arg.q) (
    match goOf s s.arg.q s.arg.k with
    | none => s
    | some g =>
      match g.wait with
      | .place _ _ | .compact _ => failFault { s with reeveCyc := max s.reeveCyc (g.issued + 2 ^ 27) } s.arg.q g cPLACEMENT
      | .evict _ p v _ => failFault { (dropEviction s p v) with reeveCyc := max s.reeveCyc (g.issued + 2 ^ 27) } s.arg.q g cPLACEMENT
      | _ => s)

/-- R348: a launch that evicts is placed without the save, where a release has made room meanwhile: the save that has begun is given up. -/
def placedFreely (s : State) (q : Nat) (g : Going) (p v : Nat) : Option State :=
  if s.pa.isSome then none
  else
    match tryPlace (dropEviction s p v) g.data (lnONEDIE g.pkt.bytes) (some g.pkt.root) true with
    | .placed t n => some (launchOn t q g n)
    | _ => none

/-- R348 EVICTION_SAVE: the eviction for launch `k` of queue `q` goes on: the save begins, or the plot has drained and its image is written to the first gap
of the pool that holds it; then the launch is tried again. A candidate that cannot be saved is skipped, and none is saved while the launch fits. -/
def execEvictionSave (s : State) : Result :=
  onUnit (okQ s.arg.q) (
    let q := s.arg.q
    match goOf s q s.arg.k with
    | none => s
    | some g =>
      match g.wait with
      | .evict tries p v skipped =>
        match placedFreely s q g p v with
        | some t => t
        | none =>
        let next (t : State) : State := launchEvict t q g tries ((p, v) :: skipped)
        match (s.placeOf p).bind (fun pl => (plotContext pl v).map (fun pc => (pl, pc))) with
        | none => launchPlace s q g tries
        | some (pl, pc) =>
          if !pl.saving.contains (v, none) then
            (if pl.moving.isSome || pl.saving.any (fun w => w.1 == v) then next s
            else if evictionBegins s p v then startSave s p v none pc else s)
          else if !saveReady s pc then s
          else
            let tries' := ((poolGaps s).filter (fun (a : Nat × Nat) => hbmRange s a.1 a.2)).map (fun a => finishSave s p v pc a.1 a.2 (some s.evictions))
            match tries'.find? (fun r => match r with
              | .noRoom _ _ => false
              | _ => true) with
            | some (.ok t _) =>
              launchPlace { t with evictions := t.evictions + 1 } q g tries
            | some (.busy t) => next t
            | some (.later t) => t
            | _ => next (abandonSave s p v pc)
      | _ => s)

/-- R348 EVICTED_PLOT_RESTORE: after a release of plot-contexts the Reeve tries to restore its evicted plots. -/
def execEvictedPlotRestore (s : State) : Result := .next (if s.pa.isSome then s else restoreAll s)

end Sys2Proof.Machine
end

