-- ==== Sys2Proof/Machine/Ethernet.lean ====
section
/-! DEFINITION. The Ethernet ports and the ingest of rings (R309 to R312, R443). -/

namespace Sys2Proof.Machine

/-- R443, R447: a packet dropped at its port, counted by counter `k` of the port (0 ERXNBP, 1 ERXNBB, 2 ERXMODE, 3 ERXFCS). -/
def ethCount (s : State) (port k n : Nat) : State := s.count (0x0400 + 32 * port + 8 * k) n

/-- R443: a RUD packet is acknowledged or refused; a UUD packet receives no answer. -/
def rudAnswer (s : State) (port : Nat) (pkt : EthPacket) (ack : Bool) : State :=
  if pkt.mode = .rud then s.emitOut (.rud port ack) else s

/-! ARRIVE tokens (R312) -/

/-- R312: the token of an ARRIVE for `n` records. -/
def arriveTok (s : State) (pl : Placement) (r : Ring) (n : Nat) : Tok :=
  { tokZero with
    gen := (s.frameOf r.plid r.frame).gen, frame := BitVec.ofNat 10 r.frame, iter := BitVec.ofNat 16 r.iter, kind := .data
    port := BitVec.ofNat 4 (entPORT (pl.entries.getD r.entry 0)), payload := word n }

/-- R312, R314: the oldest ARRIVE that waits at ring `n`'s edge port enters its frame in OPEN or RUNNING, if it can; an UNBIND that waits for it goes on. -/
def deliverArrive (s : State) (n : Nat) : State :=
  match Tab.get? s.rings n with
  | none => s
  | some r =>
    match r.pendingArrive, s.placeOf r.plid with
    | k :: rest, some pl =>
      let st := (s.frameOf r.plid r.frame).st
      if !(st == .opened || st == .running) then s
      else
        match inject s r.plid (entVelem (pl.entries.getD r.entry 0)) (chanRing n) (arriveTok s pl r k) with
        | .refused t => t
        | .taken t =>
          let r1 := { r with pendingArrive := rest }
          let t1 : State := left { t with rings := Tab.set t.rings n r1 } r.cl r.plid r.frame (s.frameOf r.plid r.frame).gen
          match r1.unbinding, rest with
          | some (q, id), [] =>
            match goOf t1 q id with
            | some g => completePkt (ringLeaves t1 n r1) q g
            | none => ringLeaves t1 n r1
          | _, _ => t1
    | _, _ => s

/-- R312: an ARRIVE for the records published since the last one. -/
def sendArrive (s : State) (n : Nat) : State :=
  match Tab.get? s.rings n with
  | none => s
  | some r =>
    deliverArrive (touch { s with rings := Tab.set s.rings n { r with count := 0, pendingArrive := r.pendingArrive ++ [r.count] } }
      r.cl r.plid r.frame (s.frameOf r.plid r.frame).gen) n

/-! Ingest (R311) -/

/-- R311: KIDX and CIDX after a record is dropped, and whether it must be marked DROPPED. -/
def dropRecord (k c size : Nat) : Nat × Nat × Bool := if c = k then (k + size, k + size, false) else (k + size, c, true)

/-- R311: the fewest records from KIDX on whose drop gives room for `need` bytes: the byte indices of the records; none where no such drop does. -/
def dropsFor (s : State) (r : Ring) (p need : Nat) : Nat → Nat → Nat → Option (List Nat)
  | 0, _, _ => none
  | fuel + 1, k, c =>
    if need + (p - c) ≤ 2 ^ r.lg then some []
    else if p ≤ k then none
    else
      let d := dropRecord k c (recordAt s r k).2.2.2
      (dropsFor s r p need fuel d.1 d.2.1).map (fun l => k :: l)

/-- R447, R450: a header that `dropsFor` reads holds an error. -/
def dropsBad (s : State) (r : Ring) (p need : Nat) : Nat → Nat → Nat → Bool
  | 0, _, _ => false
  | fuel + 1, k, c =>
    if need + (p - c) ≤ 2 ^ r.lg || decide (p ≤ k) then false
    else
      let d := dropRecord k c (recordAt s r k).2.2.2
      headerBad s r k || dropsBad s r p need fuel d.1 d.2.1

/-- R311: the size of the PAD before a packet of `len` bytes, and the bytes that it needs with its PAD. -/
def ringNeed (s : State) (r : Ring) (len : Nat) : Nat × Nat :=
  let p := ringWord s r 0
  let size := 2 ^ r.lg
  let n := recordSize len
  let pad := if size < p % size + n then size - p % size else 0
  (pad, n + pad)

/-- R447: the ingest of a packet of `len` bytes reads a header that cannot be corrected. -/
def ingestBad (s : State) (r : Ring) (len : Nat) : Bool :=
  r.policy == 1 && dropsBad s r (ringWord s r 0) (ringNeed s r len).2 (ringFuel r) (ringWord s r 1) (ringWord s r 2)

/-- R309: a counter pair of a ring adds one packet and its bytes: 4 accepted, 6 full, 8 failed integrity. -/
def ringCount (s : State) (r : Ring) (w len : Nat) : State :=
  ringSetWord (ringSetWord s r w ((ringWord s r w + 1) % 2 ^ 64)) r (w + 1) ((ringWord s r (w + 1) + len) % 2 ^ 64)

/-- R311: one record is dropped; a PAD counts nothing. -/
def dropOne (s : State) (r : Ring) (i : Nat) : State :=
  let q := recordAt s r i
  let d := dropRecord (ringWord s r 1) (ringWord s r 2) q.2.2.2
  let s1 : State := if q.1 = 1 then s else ringCount s r 6 q.2.1
  let s2 : State := if d.2.2 && q.1 != 1 then
      s1.updCluster r.cl (fun k => { k with com := memWrite k.com (r.ctl + 128 + i % 2 ^ r.lg + 10) [2] })
    else s1
  ringSetWord (ringSetWord s2 r 1 d.1) r 2 d.2.1

/-- R310: the header of a record. -/
def recordHeader (seq len kind port : Nat) (src : BitVec 128) : List Byte :=
  leBytes 8 seq ++ leBytes 2 len ++ leBytes 1 kind ++ leBytes 1 port ++ leBytes 4 0 ++ leBytes 16 src.toNat

/-- Bytes written at byte index `i` of a ring. -/
def ringBytes (s : State) (r : Ring) (i : Nat) (bs : List Byte) : State :=
  s.updCluster r.cl (fun k =>
    let a := r.ctl + 128 + i % 2 ^ r.lg
    { k with com := memWrite k.com a bs, comErr := coverErr k.comErr 8 a bs.length })

/-- R310, R311: the PAD, if one is needed, and the record are written; then PIDX publishes it. (DESIGN CHOICE, unsafe: log 136.) -/
def publish (s : State) (r : Ring) (port : Nat) (src : BitVec 128) (bs : List Byte) (pad : Nat) : State :=
  let p := ringWord s r 0
  let seq := ringWord s r 4
  let s1 : State := if pad = 0 then s else ringBytes s r p (recordHeader seq 0 1 0 0)
  let body := recordHeader seq bs.length 0 port src ++ bs
  let s2 : State := ringBytes s1 r (p + pad) (body ++ List.replicate (recordSize bs.length - body.length) 0)
  ringSetWord (ringCount s2 r 4 bs.length) r 0 (p + pad + recordSize bs.length)

/-- R311: an authenticated packet is placed in its ring, or counted in FULL; true where it was accepted. -/
def ingest (s : State) (r : Ring) (port : Nat) (src : BitVec 128) (bs : List Byte) : State × Bool :=
  let p := ringWord s r 0
  let size := 2 ^ r.lg
  let pad := (ringNeed s r bs.length).1
  let need := (ringNeed s r bs.length).2
  let s1 : State := if r.policy = 1 then
      (match dropsFor s r p need (ringFuel r) (ringWord s r 1) (ringWord s r 2) with
        | some l => l.foldl (fun (st : State) (i : Nat) => dropOne st r i) s
        | none => s)
    else s
  if size < need + (p - ringWord s1 r 2) then (ringCount s1 r 6 bs.length, false) else (publish s1 r port src bs pad, true)

/-- R311, R443 ETHERNET_PACKET_RECEIVE: a packet on port `p` is dropped and counted, or authenticated and placed in its ring. (DEDUCED, unsafe: log 95.) -/
def execEthernetPacketReceive (s : State) : Result :=
  onUnit (decide (s.arg.p < 4) && s.arg.eth.isSome) (
    let port := s.arg.p
    let e := ethOf s port
    match s.arg.eth with
    | none => s
    | some pkt =>
      let len := pkt.payload.length
      let modeOn := match pkt.mode with
        | .uud => e.modes % 2 == 1
        | .rud => e.modes / 2 % 2 == 1
        | .rod => false
      if !e.ena then s
      else if !modeOn then rudAnswer (ethCount s port 2 1) port pkt false
      else if !pkt.frameOk || decide (e.maxlen < len) then rudAnswer (ethCount s port 3 1) port pkt false
      else
        match Tab.get? s.rings pkt.ring with
        | none => rudAnswer (ethCount (ethCount s port 0 1) port 1 len) port pkt false
        | some r =>
          if r.unbinding.isSome then rudAnswer (ethCount (ethCount s port 0 1) port 1 len) port pkt false
          else if touchesBad (s.clusterOf r.cl).comErr 8 r.ctl 128 then rudAnswer (countBad s (.commons r.cl r.ctl)) port pkt false
          else
            let k := keyEntry s r.key
            if !(k.v && Config.gcmOpens k.secret pkt.payload) then rudAnswer (ringCount s r 8 len) port pkt false
            else
              if ingestBad s r len then rudAnswer (countBad s (.commons r.cl r.ctl)) port pkt false
              else
              let bs := (List.range len).map (Config.gcmPlain k.secret pkt.payload)
              match ingest s r port pkt.src bs with
              | (t, false) => rudAnswer t port pkt false
              | (t, true) =>
                let t1 : State := rudAnswer { t with rings := Tab.set t.rings pkt.ring { r with count := r.count + 1 } } port pkt true
                if r.batch ≤ r.count + 1 then sendArrive t1 pkt.ring else t1)

/-- R312 ARRIVE_TIMEOUT: at ring `r` an ARRIVE that waits enters its frame; or TMO port cycles have passed since the first record that no ARRIVE has announced. -/
def execArriveTimeout (s : State) : Result :=
  onUnit (decide (s.arg.r < 256)) (
    match Tab.get? s.rings s.arg.r with
    | none => s
    | some r =>
      if !r.pendingArrive.isEmpty then deliverArrive s s.arg.r
      else if r.count != 0 && r.tmo != 0 && r.unbinding.isNone then sendArrive s s.arg.r
      else s)

/-- R443 ETHERNET_TRANSMIT: bytes 0 to LEN - 1 of the staging of port `p` leave as one UUD packet. -/
def execEthernetTransmit (s : State) : Result :=
  onUnit (decide (s.arg.p < 4)) (
    let e := ethOf s s.arg.p
    if e.ena ∧ 64 ≤ s.arg.k ∧ s.arg.k ≤ 512 then
      s.emitOut (.eth s.arg.p e.dst ((bytesOfWords e.buf.toList).take s.arg.k))
    else s)

end Sys2Proof.Machine
end

