-- ==== Sys2Proof/Machine/Land.lean ====
section
/-! DEFINITION. Events of the PA, the criers and the arbiters that end what instructions of class P and packets wait for: moves and placement (R86, R87), GEN
bumps (R57, R100, R364), census rounds (R69, R70, R76, R77, R331), and the landing of priorities and pauses (R338, R368). -/

namespace Sys2Proof.Machine

/-! The end of a wait -/

/-- R95: the sequencer of cluster `c` receives its status word and goes on. -/
def seqFinish (s : State) (c d : Nat) (st : Word) : State :=
  let q := s.seqOf c
  s.setSeq c ((q.setReg (BitVec.ofNat 5 d) st).finish (q.pc + 4) 12)

/-- The packets that wait, with their queues. -/
def waitingPackets (s : State) : List (Nat × Going) := s.queues.flatMap (fun q => q.2.going.map (fun g => (q.1, g)))

/-- R57, R95, R302: who waits for the GEN bump of a frame receives a status word. -/
def bumpEnds (s : State) (p f : Nat) (st : Word) : State :=
  let s1 : State := (Tab.keys s.seqs).foldl (fun (t : State) (c : Nat) => match (t.seqOf c).wait with
    | some (.bump d p' f') => if p' = p ∧ f' = f then seqFinish t c d st else t
    | _ => t) s
  (waitingPackets s).foldl (fun (t : State) (g : Nat × Going) => match g.2.wait with
    | .op (.bump _ p' f') => if p' = p ∧ f' = f then opEnds t g.1 g.2 st else t
    | _ => t) s1

/-! Moves and placement (R86, R87) -/

/-- R86: what a waiting GLOAD of the sequencer of cluster `c` makes of an attempt. -/
def seqPlaced (s : State) (c d : Nat) (img : List Byte) (oneDie wait : Bool) (tries : Nat) (issued : Word) (a : Attempt) : State :=
  let waits (t : State) (n : Nat) : State :=
    t.setSeq c { t.seqOf c with wait := some (.place d img oneDie wait n t.releases issued) }
  match a with
  | .placed t p => t.setSeq c { t.seqOf c with wait := some (.filling d p (statusWord stOK 0 p)) }
  | .moving t => waits t 1
  | .none => if !wait || decide (16 ≤ tries) then seqFinish s c d noPlace else waits s tries

/-- R86: what a waiting GLOAD packet makes of an attempt. -/
def packetPlaced (s : State) (q : Nat) (g : Going) (oneDie wait : Bool) (tries : Nat) (a : Attempt) : State :=
  let waits (t : State) (n : Nat) : State := waitFor t q g.pkt.id (.op (.place 0 [] oneDie wait n t.releases (word g.issued)))
  match a with
  | .placed t p => waitFor t q g.pkt.id (.op (.filling 0 p (statusWord stOK 0 p)))
  | .moving t => waits t 1
  | .none => if !wait || decide (16 ≤ tries) then opEnds s q g noPlace else waits s tries

/-- R86: the PA goes on for the request that compacts: the next move, the placement, or the end of the second attempt. -/
def afterMove (s : State) : State :=
  let s1 : State := { s with pa := none }
  match s.pa with
  | none => s1
  | some (.seq c) =>
    let q := s1.seqOf c
    match q.wait with
    | some (.place d img oneDie wait _ _ issued) =>
      seqPlaced s1 c d img oneDie wait 2 issued (compactStep s1 img oneDie (gloadRoot q) false (.seq c))
    | _ => s1
  | some (.packet q id) =>
    match goOf s1 q id with
    | none => s1
    | some g =>
      match g.wait with
      | .op (.place _ _ oneDie wait _ _ _) =>
        packetPlaced s1 q g oneDie wait 2 (compactStep s1 g.data oneDie (some g.pkt.root) false (.packet q id))
      | .compact tries => launchPlace s1 q g tries
      | _ => s1

/-- R87 PLOT_MOVE: the virtual plot of placement `p` that is moving has drained: its granules are taken at its new plot-context, and then it stands there and the PA
goes on. -/
def execPlotMove (s : State) : Result :=
  .next (match s.placeOf s.arg.p with
    | none => s
    | some pl =>
      match pl.moving with
      | none => s
      | some v =>
        match plotContext pl v with
        | none => s
        | some x =>
          if !plotDrained s x then s
          else
            match takenPlot s s.arg.p v with
            | some y => afterMove (copyPlot s s.arg.p v x y)
            | none =>
              match lowerFit s pl v x with
              | some y => takeGranules s s.arg.p v pl.parts y
              | none => afterMove (setPlotState (s.updPlace s.arg.p (fun q => { q with moving := none })) x .live))

/-- R86: an attempt of a waiting GLOAD: the first one with its compaction, a later one after a release. (DEDUCED, unsafe: log 18.) -/
def retryAttempt (s : State) (img : List Byte) (oneDie : Bool) (root : Option (Word × Nat)) (tries : Nat) (req : PaReq) : Attempt :=
  if tries = 0 then compactStep s img oneDie root false req else tryPlace s img oneDie root false

/-- R86 PLACEMENT_RETRY: the waiting GLOAD of cluster `c`, or, with `ok`, that of packet `k` of queue `q`, is tried again. -/
def execPlacementRetry (s : State) : Result :=
  .next (
    if s.pa.isSome then s
    else if s.arg.ok then
      (match goOf s s.arg.q s.arg.k with
        | none => s
        | some g =>
          match g.wait with
          | .op (.place _ _ oneDie wait tries since _) =>
            if tries != 0 && since == s.releases then s
            else packetPlaced s s.arg.q g oneDie wait (if tries = 0 then 2 else tries + 1)
              (retryAttempt s g.data oneDie (some g.pkt.root) tries (.packet s.arg.q g.pkt.id))
          | _ => s)
    else
      match (s.seqOf s.arg.c).wait with
      | some (.place d img oneDie wait tries since issued) =>
        if tries != 0 && since == s.releases then s
        else seqPlaced s s.arg.c d img oneDie wait (if tries = 0 then 2 else tries + 1) issued
          (retryAttempt s img oneDie (gloadRoot (s.seqOf s.arg.c)) tries (.seq s.arg.c))
      | _ => s)

/-- R86: cycles after which a GLOAD that waits gives up. -/
def placementBudget : Nat := 2 ^ 27

/-- R86: the budget of a GLOAD that waits for a sequencer has passed. -/
def budgetSpent (q : Seq) : Bool :=
  match q.wait with
  | some (.place _ _ _ true _ _ issued) => decide (placementBudget ≤ (q.cycle - issued).toNat)
  | _ => false

/-- R86 PLACEMENT_BUDGET_EXPIRY: a GLOAD that asked to wait gives up, whatever it waits for; a packet's budget is counted in Reeve cycles. -/
def execPlacementBudgetExpiry (s : State) : Result :=
  .next (
    if s.arg.ok then
      (match goOf s s.arg.q s.arg.k with
        | none => s
        | some g =>
          match g.wait with
          | .op (.place _ _ _ true _ _ _) => opEnds { s with reeveCyc := max s.reeveCyc (g.issued + placementBudget) } s.arg.q g noPlace
          | _ => s)
    else
      match (s.seqOf s.arg.c).wait with
      | some (.place d _ _ _ _ _ _) => if budgetSpent (s.seqOf s.arg.c) then seqFinish s s.arg.c d noPlace else s
      | _ => s)

/-! GEN bumps (R57, R100, R364) -/

/-- R100: the end of a kill: the frame is OPEN with the hold set for its new generation. -/
def endKill (s : State) (p f : Nat) : State :=
  let s1 : State := s.updFrame p f (fun r => { r with st := .opened, hold := true, bump := none })
  let fr := s1.frameOf p f
  bumpEnds (touch s1 fr.home p f fr.gen) p f (statusWord stOK 0 (at' fr.gen.toNat 10))

/-- R100, R364: what follows once every cluster's table gives a frame's new generation. -/
def tablesUpdated (s : State) (p f : Nat) (b : Bump) : State :=
  match b with
  | .kill => endKill s p f
  | .rollback k _ => s.updFrame p f (fun r => { r with bump := some (.rollback k true) })

/-- R57, R100, R364 GEN_BUMP_COMPLETE: the table of cluster `c` for frame `f` of placement `p` is updated; the last one ends a kill, or lets a rollback go on, which
then waits until the frame is still before its undo and its restore. -/
def execGenBumpComplete (s : State) : Result :=
  .next (
    let p := s.arg.p
    let f := s.arg.f
    match (s.frameOf p f).bump with
    | none => s
    | some (.rollback k true) =>
      if frameStill s p f then
        (match rollBackNow s p f k with
         | .ok r => bumpEnds r.1 p f (statusWord stOK 0 r.2)
         | .error t => t)
      else s
    | some b =>
      match bumpTable s p f s.arg.c with
      | none => s
      | some t => if (t.frameOf p f).old.isEmpty then tablesUpdated t p f b else t)

/-! Quiet counters (R76) -/

/-- R76: Q of a placement in sequencer cycles: 2^QEXP, QEXP the largest of its contexts, saved ones among them. -/
def quietInterval (s : State) (p : Nat) : Nat :=
  let live := s.elems.flatMap (fun e => e.2.ctx.toList.filterMap (fun c => if c.st != .free && c.plid == p then some (ccwQEXP c.ccw) else none))
  let saved := match s.placeOf p with
    | some pl => pl.saved.flatMap (fun v => v.ctxs.map (·.qexp))
    | none => []
  2 ^ (live ++ saved).foldl max 0

/-- R76: a context whose tokens wait on something other than tokens of their frame: its priority is 0, or it is being moved, saved, written or restored. -/
def ctxHeldUp (c : Ctx) : Bool := c.st != .live || ccwPRIO c.ccw == 0 || !c.waitIn.isEmpty || !c.spillKills.isEmpty

/-- A context holds a token of another frame or generation. -/
def othersWait (c : Ctx) (f : Nat) (g : BitVec 2) : Bool := c.ms.any (fun m => !m.tok.countsFor f g)

/-- R67, R77: the head of a route can leave it now. -/
def headMoves (s : State) (e x r : Nat) : Bool :=
  match fifoHead s e x r with
  | none => false
  | some t =>
    let c := s.ctxOf e x
    let rt := vget c.routes r 0
    (tokenWaits s e x r && (match arrive s (rtElem rt) (rtCTX rt) c.plid (chanRoute c.velem r) (rtNET rt) (onRoute rt t) with
        | .taken _ => true
        | .refused _ => false))
      || controlWaits s e x r .kill || controlWaits s e x r .commit

/-- R76, R77: tokens of a frame in a route's FIFO wait on something other than tokens of the frame, or can go on: they go to an edge port, to a
plot that is closed or held up, or to a store in which other frames' tokens stand; or the head is a marker, an FNEW or FRET result or another frame's, or can leave now. -/
def fifoStops (s : State) (e x f : Nat) (g : BitVec 2) (r : Nat) : Bool :=
  let c := s.ctxOf e x
  let rt := vget c.routes r 0
  let h := s.ctxOf (rtElem rt) (rtCTX rt)
  (vget c.fifo r []).any (fun t => t.countsFor f g) &&
    (rtTGT rt != 0 || !targetOpen s c r || ctxHeldUp h || othersWait h f g || headMoves s e x r
      || (fifoHead s e x r).any (fun t => t.kind == .mark || t.cust.isSome || !t.countsFor f g))

/-- R168, R76: a token of a frame waits at an EVWAIT whose operands have arrived. -/
def eventWaits (c : Ctx) (f : Nat) (g : BitVec 2) : Bool :=
  let at'' (n : Nat) : Bool := decide (12 ≤ n) || c.ms.any (fun m => m.st == .idle && !m.net && m.tok.port.toNat == n && m.tok.countsFor f g)
  c.words.toList.any (fun w => wOPC w == 0x58 && (decide (wSA w < 12) || decide (wSB w < 12)) && at'' (wSA w) && at'' (wSB w))

/-- R60, R77: a slot of a context is matched on tokens of a frame, and is ready, or waits for more than room for its results. -/
def siteStops (s : State) (e x f : Nat) (g : BitVec 2) : Bool :=
  let el := s.elemOf e
  let c := s.ctxOf e x
  (matchedSites s e).any (fun t =>
    let F := fireOf s t
    t.x == x && F.tag.frame.toNat == f && F.tag.gen == g &&
      (othersWait c f g || (destRoom c F.w && decide (slotsNeeded F.w F.cfg ≤ (freeSlots el x c).length))))

/-- R76, R77: a context holds tokens of a frame that can go on, or whose progress waits on something other than the frame's own tokens. -/
def ctxStops (s : State) (e x p f : Nat) (g : BitVec 2) : Bool :=
  let c := s.ctxOf e x
  c.st != .free && c.plid == p &&
    ((ctxCustody c p f g true != 0 && ctxHeldUp c) || (List.range 14).any (fifoStops s e x f g)
      || c.inflight.any (fun i => i.tag.frame.toNat == f && i.tag.gen == g) || c.pauseReq.any (fun q => q.1 == f)
      || c.ms.any (fun m => m.tok.countsFor f g && (match m.st with
          | .fault _ _ => true
          | _ => false))
      || eventWaits c f g || siteStops s e x f g || stageable s e x f || forwardable s e x f || spillReturns s e x
      || (othersWait c f g && s.spills.any (fun v => spillOf c v && v.tok.countsFor f g)))

/-- The cluster of an append that is held. -/
def holderCluster (s : State) (h : Holder) : Nat :=
  if h.kind = 1 then h.loc
  else if h.kind = 4 then ((Tab.get? s.guest.tags h.num).map (·.cl)).getD 0
  else clusterOfElem h.loc

/-- R76, R77, R90, R235, R284, R314, R327, R347, R366, R368: cluster `c` holds a token of the frame's generation that can go on, or whose progress waits on something other
than the frame's own tokens: its quiet counter does not advance. -/
def quietStops (s : State) (c p f : Nat) (g : BitVec 2) : Bool :=
  let fr := s.frameOf p f
  fr.paused || (fr.home == c && (fr.hold || fr.ringHolds != 0))
    || s.elems.any (fun e => clusterOfElem e.1 == c && (portCustody e.2 p f g != 0 || (List.range 4).any (fun x => ctxStops s e.1 x p f g)))
    || (s.clusterOf c).ce.any (fun y => y.plid == p && y.sender.isSome && y.tag.countsFor f g)
    || s.guest.tags.any (fun t => t.2.cl == c && t.2.plid == p && t.2.tag.countsFor f g)
    || (match s.placeOf p with
      | some pl => pl.saved.any (fun v => v.cl == c && v.toks.any (fun t => !t.dropped && (t.cust.getD (t.frame, t.gen)) == (f, g.toNat)))
          || pl.stagedIn.any (fun t => t.cl == c && t.tok.countsFor f g)
      | none => false)
    || s.rings.any (fun r => r.2.cl == c && r.2.plid == p && r.2.frame == f && !r.2.pendingArrive.isEmpty)
    || fr.log.waiting.any (fun h => holderCluster s h == c)

/-- R76: `n` cycles of cluster `c` pass for a frame: its quiet counter goes on towards Q, and is announced when it reaches it. -/
def quietCount (s : State) (c n p f : Nat) : State :=
  let g := s.genAt p f c
  let k := 4 * c + g.toNat
  match Tab.get? (s.frameOf p f).quiet k with
  | none => s
  | some v =>
    let q := quietInterval s p
    if q ≤ v || (s.frameOf p f).st == .free || quietStops s c p f g then s
    else
      let s1 : State := s.updFrame p f (fun r => { r with quiet := Tab.set r.quiet k (min q (v + n)) })
      if q ≤ v + n then s1.due .quietIntervalExpiry { c := c, p := p, f := f } else s1

/-- R76: `n` cycles of cluster `c` pass for every frame. -/
def quietPass (s : State) (c n : Nat) : State :=
  s.places.foldl (fun (t : State) (p : Nat × Placement) => (Tab.keys p.2.frames).foldl (fun (u : State) (f : Nat) => quietCount u c n p.1 f) t) s

/-- R76, R69 QUIET_INTERVAL_EXPIRY: the quiet counter of cluster `c` for frame `f` of placement `p` has reached Q, and its crier announces it, once. A frame that is not RUNNING
has no rounds. (DEDUCED, unsafe: log 60.) -/
def execQuietIntervalExpiry (s : State) : Result :=
  onUnit (okC s.arg.c) (
    let c := s.arg.c
    let p := s.arg.p
    let f := s.arg.f
    let k := 4 * c + (s.genAt p f c).toNat
    if Tab.get? (s.frameOf p f).quiet k != some (quietInterval s p) then s
    else s.updFrame p f (fun r => { r with
      quiet := Tab.set r.quiet k (quietInterval s p + 1), announced := r.announced || r.st == .running }))

/-! Census rounds (R67 to R70, R76, R77) -/

/-- R69: the clusters that a round asks: those that count tokens of the placement, and those whose criers keep an entry for the frame. -/
def roundClusters (s : State) (p f : Nat) : List Nat :=
  let fr := s.frameOf p f
  (custodyClusters s p ++ ((Tab.keys fr.quiet).filter (fun k => k % 4 == fr.gen.toNat)).map (· / 4)).eraseDups

/-- R69, R76: the report of a cluster. -/
def reportOf (s : State) (p f c : Nat) : Report :=
  let fr := s.frameOf p f
  { cl := c, count := custody s c p f fr.gen, active := (s.clusterOf c).act.contains (p, f, fr.gen.toNat)
    quiet := match Tab.get? fr.quiet (4 * c + fr.gen.toNat) with
      | some v => decide (quietInterval s p ≤ v)
      | none => true }

/-- R68 to R70: cluster `c` reports: its activity bit is cleared, and the frame is marked where nothing is held and nothing was done. -/
def takeReport (s : State) (p f c : Nat) : State :=
  let key := (p, f, (s.frameOf p f).gen.toNat)
  let r := reportOf s p f c
  let s1 : State := s.updFrame p f (fun q => { q with round := q.round.map (· ++ [r]), asked := q.asked.filter (· != c) })
  s1.updCluster c (fun k => { k with
    act := k.act.filter (· != key)
    marked := if r.count = 0 ∧ !r.active then key :: k.marked else k.marked })

/-- R69 CENSUS_ROUND_START: a round of frame `f` of placement `p` begins, if one has been announced and none is in progress; cluster `c`, which it asks, reports. -/
def execCensusRoundStart (s : State) : Result :=
  .next (
    let p := s.arg.p
    let f := s.arg.f
    let c := s.arg.c
    let fr := s.frameOf p f
    if fr.asked.contains c then takeReport s p f c
    else if fr.st == .running && fr.announced && fr.round.isNone && (roundClusters s p f).contains c then
      takeReport (s.updFrame p f (fun r => { r with announced := false, round := some [], asked := roundClusters s p f })) p f c
    else s)

/-- R331: the tokens of a frame that wait in matching stores, in order of die, cluster, element, context and arrival. -/
def waitingTokens (s : State) (p f : Nat) : List (Nat × Nat × MsEntry) :=
  let g := (s.frameOf p f).gen
  s.elems.flatMap (fun e => (List.range 4).flatMap (fun x =>
    let c := s.ctxOf e.1 x
    if c.st == .free || c.plid != p then []
    else (byOrd (c.ms.filter (fun m => m.tok.frame.toNat == f && m.tok.gen == g))).map (fun m => (e.1, x, m))))

/-- R331, R207: the slot of a context that owns an input port: on the scale network the MMAS slot, whose scale ports these are. -/
def owningSlot (c : Ctx) (net : Bool) (port : Nat) : Nat :=
  ((List.range 16).find? (fun k => let w := vget c.words k vacant
    w != vacant && (if net then wOPC w == 0xA1 else wSA w == port || wSB w == port))).getD 0

/-- R331: a WAITING record. (DEDUCED, unsafe: log 59.) -/
def waitingRecord (s : State) (p f i : Nat) (w : Nat × Nat × MsEntry) : Record :=
  let c := s.ctxOf w.1 w.2.1
  let k := owningSlot c w.2.2.net w.2.2.tok.port.toNat
  let t := w.2.2.tok
  let pay := match w.2.2.slot with
    | some n => setField t.payload 40 8 n
    | none => t.payload
  { recordZero with
    hdra := t.header w.2.1, paya := pay, elem := elemField w.1, cs := csField w.2.1 k, opc := wOPC (vget c.words k vacant)
    code := cDEADLOCK, kind := 2
    win := if (s.frameOf p f).log.mode = 0 then 0 else Tab.getD c.wins f 0
    frm := frmField p f (s.frameOf p f).gen, aux := i }

/-- R77, R331: a frame is declared DEADLOCKED. -/
def declareDeadlock (s : State) (p f sum : Nat) : State :=
  let fr := s.frameOf p f
  let ws := (waitingTokens s p f).take 256
  let s1 : State := s.updFrame p f (fun r => { r with st := .deadlocked })
  let s2 : State := sendRecord s1 fr.home { recordZero with
    fval := word sum, code := cDEADLOCK, kind := 1, frm := frmField p f fr.gen, aux := ws.length }
  (List.zip (List.range ws.length) ws).foldl (fun (t : State) (w : Nat × (Nat × Nat × MsEntry)) => sendRecord t fr.home (waitingRecord s p f w.1 w.2)) s2

/-- R69, R91, R98, R303: a frame is COMPLETE: its event bit is set, if enabled, and its launch learns of it. -/
def declareComplete (s : State) (p f : Nat) : State :=
  let fr := s.frameOf p f
  let s1 : State := s.updFrame p f (fun r => { r with st := .complete })
  let s2 : State := if fr.even then eventOp s1 fr.home 0 fr.evb else s1
  match fr.launch with
  | some (q, k) => s2.due .launchCompletion { q := q, k := k, ok := true }
  | none => s2

/-- R69, R70, R77 CENSUS_ROUND_OUTCOME: the package crier judges the round of frame `f` of placement `p` and tells every cluster that it asked. -/
def execCensusRoundOutcome (s : State) : Result :=
  .next (
    let p := s.arg.p
    let f := s.arg.f
    let fr := s.frameOf p f
    match (if fr.asked.isEmpty then fr.round else none) with
    | none => s
    | some reps =>
      let key := (p, f, fr.gen.toNat)
      let sum := (reps.map (·.count)).sum
      let s1 : State := reps.foldl (fun (t : State) (r : Report) => t.updCluster r.cl (fun k => { k with marked := k.marked.filter (· != key) })) s
      let s2 : State := s1.updFrame p f (fun r => { r with round := none, lastSum := sum })
      if fr.st != .running then s2
      else if sum = 0 then
        (if reps.any (·.active) then s2.updFrame p f (fun r => { r with announced := true }) else declareComplete s2 p f)
      else if reps.all (·.quiet) then declareDeadlock s2 p f sum
      else s2)

/-! Landings (R338, R368) -/

/-- R338: CPRIO completes where every live context has landed the priority. -/
def prioEnds (s : State) : State :=
  (Tab.keys s.seqs).foldl (fun (t : State) (c : Nat) => match (t.seqOf c).wait with
    | some (.prio d p) => if prioDue t p then t else seqFinish t c d (statusWord stOK 0 0)
    | _ => t) s

/-- R338: a new priority can land at a context: it stands at a firing boundary. -/
def prioLands (s : State) (e x : Nat) : Bool := (s.ctxOf e x).newPrio.isSome && (s.ctxOf e x).inflight.isEmpty

/-- R338 PRIO_LANDING: a new priority lands at context `x` of element `e`, Wait having counted up to this cycle under the one before (R63). -/
def execPrioLanding (s : State) : Result :=
  onUnit (okX s.arg.e s.arg.x) (
    if prioLands s s.arg.e s.arg.x then prioEnds (landPrio (updateOrder s s.arg.e) s.arg.e s.arg.x) else s)

/-- R371: PAUSE and RESUME complete where every context has landed them. -/
def pauseEnds (s : State) : State :=
  (Tab.keys s.seqs).foldl (fun (t : State) (c : Nat) => match (t.seqOf c).wait with
    | some (.fstep d p f false _ _ _) => if pauseDue t p f then t else seqFinish t c d (statusWord stOK 0 0)
    | _ => t) s

/-- R368 PAUSE_LANDING: a pause or a resume of frame `f` lands at context `x` of element `e`. -/
def execPauseLanding (s : State) : Result :=
  onUnit (okX s.arg.e s.arg.x) (
    if pauseLands s s.arg.e s.arg.x s.arg.f then pauseEnds (landPause s s.arg.e s.arg.x s.arg.f) else s)

end Sys2Proof.Machine
end

