-- ==== Sys2Proof/Machine/Aes.lean ====
section
/-! DEFINITION. AES-256 (FIPS 197) and its Galois/counter mode (NIST SP 800-38D), which R410 names for provisioning messages. -/

namespace Sys2Proof.Machine

/-- Two lists of bytes, exclusive or. -/
def xorBytes (a b : List Byte) : List Byte := List.zipWith (fun x y => x ^^^ y) a b

/-- FIPS 197: a byte times x in GF(2^8). -/
def xtime (b : Byte) : Byte := (b <<< 1) ^^^ (if b.msb then 0x1B else 0)

/-- FIPS 197: the product of two bytes in GF(2^8). -/
def gfMul (a b : Byte) : Byte :=
  ((List.range 8).foldl (fun (r : Byte × Byte) (i : Nat) => (if b.getLsbD i then r.1 ^^^ r.2 else r.1, xtime r.2)) (0, a)).1

/-- The inverse of a byte in GF(2^8), as its power 254; that of zero is zero. -/
def gfInv (a : Byte) : Byte :=
  ((List.range 7).foldl (fun (r : Byte × Byte) (_ : Nat) => (gfMul r.1 (gfMul r.2 r.2), gfMul r.2 r.2)) (1, a)).1

/-- FIPS 197 SubBytes of one byte. -/
def aesSub (a : Byte) : Byte :=
  let i := gfInv a
  i ^^^ i.rotateLeft 1 ^^^ i.rotateLeft 2 ^^^ i.rotateLeft 3 ^^^ i.rotateLeft 4 ^^^ 0x63

/-- FIPS 197: the next word of the AES-256 key schedule after the words `ws`, the last first. -/
def keyWordNext (ws : List (List Byte)) (i : Nat) : List Byte :=
  let t := ws.headD []
  let rcon : Byte := (List.range (i / 8 - 1)).foldl (fun (c : Byte) (_ : Nat) => xtime c) 1
  let u := if i % 8 = 0 then xorBytes ((t.drop 1 ++ t.take 1).map aesSub) [rcon, 0, 0, 0] else if i % 8 = 4 then t.map aesSub else t
  xorBytes (ws.getD 7 []) u

/-- FIPS 197: the 15 round keys of a 32-byte key. -/
def roundKeys (key : List Byte) : List (List Byte) :=
  let first := ((List.range 8).map (fun i => (key.drop (4 * i)).take 4)).reverse
  let ws := ((List.range 52).foldl (fun (w : List (List Byte)) (i : Nat) => keyWordNext w (i + 8) :: w) first).reverse
  (List.range 15).map (fun r => ((ws.drop (4 * r)).take 4).flatten)

/-- FIPS 197 ShiftRows. -/
def shiftRows (b : List Byte) : List Byte := (List.range 16).map (fun i => b.getD (i % 4 + 4 * ((i / 4 + i % 4) % 4)) 0)

/-- FIPS 197 MixColumns. -/
def mixColumns (b : List Byte) : List Byte :=
  (List.range 16).map (fun i =>
    let at' (k : Nat) : Byte := b.getD (4 * (i / 4) + (i + k) % 4) 0
    gfMul 2 (at' 0) ^^^ gfMul 3 (at' 1) ^^^ at' 2 ^^^ at' 3)

/-- FIPS 197: one block enciphered with AES-256. -/
def aesBlock (ks : List (List Byte)) (b : List Byte) : List Byte :=
  let mid := (List.range 13).foldl (fun (x : List Byte) (r : Nat) =>
    xorBytes (mixColumns (shiftRows (x.map aesSub))) (ks.getD (r + 1) [])) (xorBytes b (ks.getD 0 []))
  xorBytes (shiftRows (mid.map aesSub)) (ks.getD 14 [])

/-- SP 800-38D: the product of two blocks, as numbers whose highest bit is the first of the block. -/
def ghashMul (x y : Nat) : Nat :=
  ((List.range 128).foldl (fun (r : Nat × Nat) (i : Nat) =>
    (if x.testBit (127 - i) then r.1 ^^^ r.2 else r.1,
     if r.2 % 2 = 1 then (r.2 / 2) ^^^ (0xE1 * 2 ^ 120) else r.2 / 2)) (0, y)).1

/-- A block as a number, its first byte the highest. -/
def beNat (b : List Byte) : Nat := leNat b.reverse

/-- Bytes filled with zeros to whole blocks. -/
def zeroPad (b : List Byte) : List Byte := b ++ List.replicate ((16 - b.length % 16) % 16) 0

/-- SP 800-38D GHASH. -/
def ghash (h : Nat) (b : List Byte) : Nat :=
  (List.range (b.length / 16)).foldl (fun (y : Nat) (i : Nat) => ghashMul (y ^^^ beNat ((b.drop (16 * i)).take 16)) h) 0

/-- SP 800-38D: the counter block `n` after the initial one, for a 12-byte IV. -/
def counterBlock (iv : List Byte) (n : Nat) : List Byte := iv ++ (leBytes 4 (n + 1)).reverse

/-- SP 800-38D: the counter-mode keystream over some bytes. -/
def gcmCtr (ks : List (List Byte)) (iv b : List Byte) : List Byte :=
  xorBytes b ((List.range (b.length / 16 + 1)).flatMap (fun i => aesBlock ks (counterBlock iv (i + 1))))

/-- SP 800-38D: the tag over associated data and ciphertext. -/
def gcmTag (key iv aad c : List Byte) : List Byte :=
  let ks := roundKeys key
  let h := beNat (aesBlock ks (List.replicate 16 0))
  let lens := (leBytes 8 (8 * aad.length)).reverse ++ (leBytes 8 (8 * c.length)).reverse
  xorBytes (aesBlock ks (counterBlock iv 0)) (leBytes 16 (ghash h (zeroPad aad ++ zeroPad c ++ lens))).reverse

end Sys2Proof.Machine
end

