-- ==== Sys2Proof/Machine/Krydeoft.lean ====
section
/-! DEFINITION. The bridges and the Krydeoft fabric (R391, R392, R398 to R404, R413 to R418): what arrives from other packages, the answers to this
package's requests, and the states of the links. -/

namespace Sys2Proof.Machine

/-! Lines that the guest holds (R427) -/

/-- R358, R427: an access from outside waits for a line: until the write that holds it has performed, and until the guest has given up its copy. -/
def stallOn (s : State) (line : Nat) (a : Agent) : State :=
  let s1 : State := if s.guest.copies.contains line then recallLine s line else s
  { s1 with stalled := s1.stalled ++ [(line, a)] }

/-- R427: the guest holds no copy of a line any more; what waited for that is due. -/
def copyGone (s : State) (line : Nat) : State :=
  unstall (s.updGuest (fun g => { g with copies := g.copies.filter (· != line), recalls := g.recalls.filter (· != line) }))

/-- R358, R427: the first line of a range of HBM for which an access from outside waits: one that a write holds, and for a write one of which the guest holds a copy. -/
def lineBusy (s : State) (write : Bool) (a n : Nat) : Option Nat :=
  if n = 0 then none
  else ((List.range ((a + n - 1) / 128 - a / 128 + 1)).map (fun i => a / 128 + i)).find? (fun l =>
    lineHeld s (.hbm (128 * l)) || (write && s.guest.copies.contains l))

/-! Requests of other packages (R398, R401, R415) -/

/-- R401: a packet that has arrived is for this package, or goes on towards its peer. (DEDUCED, safe: log 71.) -/
def onPkt (s : State) (k : KPacket → State) : State :=
  match s.arg.pkt with
  | none => s
  | some p => if p.dst = ownPeer s then k p else portSend s (nextPort s p.dst) p

/-- R401: an answer goes back to the peer that asked. -/
def answer (s : State) (p : KPacket) (type status : Nat) (data : List Byte) : State :=
  portSend s (nextPort s p.src) { kpktZero with
    dst := p.src, src := ownPeer s, vc := 1, type := type, ndata := (data.length + 63) / 64, status := status, addr := p.addr,
    rid := p.rid, key := p.key, group := p.group, lg2 := p.lg2, tag := packetTag s p.key p.addr data, data := data }

/-- R212: the local address of a packet. -/
def pktLocal (p : KPacket) : Nat := p.addr % 2 ^ 46

/-- R401: the bytes that a packet names. -/
def pktLen (p : KPacket) : Nat := 2 ^ min p.lg2 8

/-- R212, R395: the bytes that a packet names are HBM of this package, and its key is installed. (DEDUCED, unsafe: log 72.) -/
def pktHome (s : State) (p : KPacket) : Bool :=
  hbmPresent s (pktLocal p) && hbmPresent s (pktLocal p + pktLen p - 1) && (keyEntry s p.key).v

/-- R391, R392: the data of an answer that leaves by port `n` was lost on a bridge between its home and the port. -/
def answerLost (s : State) (n a : Nat) : Bool := beatLost s (.port n) (homeDie s (.hbm a)) (portDie n)

/-- R392, R398: the data that an access has read goes back to its peer; POISON where a bridge has lost it. -/
def answerData (s : State) (p : KPacket) (bs : List Byte) : State :=
  if answerLost s s.arg.n (pktLocal p) then answer (beatsPast s (.port s.arg.n)) p kRDATA 1 [] else answer s p kRDATA 0 bs

/-- R398, R408: a READ is answered with the bytes, with POISON for a line that fails its check or data that a bridge has lost (R392), or refused. -/
def readAnswer (s : State) (p : KPacket) : State :=
  let a := pktLocal p
  if !pktHome s p then answer s p kRDATA 2 []
  else
    match lineBusy s false a (pktLen p), readHbm s p.key a (pktLen p) with
    | some line, _ => stallOn s line (.event .krydeoftRead s.arg)
    | none, some bs => answerData s p bs
    | none, none => answer (countBad s (.hbm a)) p kRDATA 1 []

/-- R401 KRYDEOFT_READ. -/
def execKrydeoftRead (s : State) : Result := onUnit (okN s.arg.n) (onPkt s (readAnswer s))

/-- R398, R450: a WRITE performs at the HN. -/
def writeAnswer (s : State) (p : KPacket) : State :=
  let a := pktLocal p
  if !pktHome s p then answer s p kWACK 2 []
  else
    match lineBusy s true a (pktLen p) with
    | some line => stallOn s line (.event .krydeoftWrite s.arg)
    | none =>
      let bs := (p.data ++ List.replicate (pktLen p) 0).take (pktLen p)
      let ok := (splitLines (bs.length + 1) a bs.length).all (fun c => (writeHbm s p.key c.1 ((bs.drop (c.1 - a)).take c.2)).isSome)
      answer (writeHbmLines (bs.length + 1) s p.key a bs) p kWACK (if ok then 0 else 2) []

/-- R401 KRYDEOFT_WRITE. -/
def execKrydeoftWrite (s : State) : Result := onUnit (okN s.arg.n) (onPkt s (writeAnswer s))

/-- R246 to R248, R401: the value that an ATOMIC packet writes over `old`. -/
def pktAtomic (p : KPacket) (old : Nat) : Option Nat :=
  if p.aop = aopCas then (if old = p.op0.toNat then some p.op1.toNat else none)
  else some (atomicNew p.aop (8 * pktLen p) old p.op0.toNat)

/-- R398, R246, R450: an ATOMIC performs at the HN and is answered with the old value. (DESIGN CHOICE, unsafe: log 73.) -/
def atomicAnswer (s : State) (p : KPacket) : State :=
  let a := pktLocal p
  if !pktHome s p then answer s p kRDATA 2 []
  else
    match lineBusy s true a (pktLen p) with
    | some line => stallOn s line (.event .krydeoftAtomic s.arg)
    | none =>
      match readHbm s p.key a (pktLen p) with
      | none => answer (countBad s (.hbm a)) p kRDATA 2 []
      | some bs =>
        match pktAtomic p (leNat bs) with
        | none => answerData s p bs
        | some v =>
          match writeHbm s p.key a (leBytes (pktLen p) v) with
          | some s1 => answerData s1 p bs
          | none => answer s p kRDATA 2 []

/-- R401 KRYDEOFT_ATOMIC. -/
def execKrydeoftAtomic (s : State) : Result := onUnit (okN s.arg.n) (onPkt s (atomicAnswer s))

/-- R415: the group entry and the key entry of a receiver admit a copy. -/
def copyAdmitted (s : State) (p : KPacket) : Bool :=
  let g := groupOf s p.group
  let k := keyEntry s p.key
  bit g.w0 63 && gHome g == p.addr / 2 ^ 46 && k.v && k.pidx == gPidx g

/-- R415, R450: the copy of an MCWRITE at this package: the state and the status. -/
def mcCopy (s : State) (p : KPacket) : State × Nat :=
  let a := pktLocal p
  let bs := (p.data ++ List.replicate (pktLen p) 0).take (pktLen p)
  if copyAdmitted s p && pktHome s p
      && (splitLines (bs.length + 1) a bs.length).all (fun c => (writeHbm s p.key c.1 ((bs.drop (c.1 - a)).take c.2)).isSome) then
    (writeHbmLines (bs.length + 1) s p.key a bs, 1)
  else (s, 2)

/-- R415, R418: the rest of an MCWRITE's destinations, one packet for each port that leads to some. -/
def mcForward (s : State) (p : KPacket) : State :=
  let rest := p.mask.filter (· != ownPeer s)
  (List.range 24).foldl (fun (st : State) (n : Nat) =>
    let ps := rest.filter (fun q => nextPort s q == n)
    if ps.isEmpty then st else portSend st n { p with mask := ps }) s

/-- R415, R418: an MCWRITE at this package: its own copy is checked, written and answered, and the rest goes on. (DEDUCED, safe: log 74.) -/
def mcWriteAnswer (s : State) (p : KPacket) : State :=
  if !p.mask.contains (ownPeer s) then mcForward s p
  else
    match (if copyAdmitted s p then lineBusy s true (pktLocal p) (pktLen p) else none) with
    | some line => stallOn s line (.event .krydeoftMcwrite s.arg)
    | none =>
      let r := mcCopy s p
      mcForward (answer r.1 p kMACK 0 (mcStatus [(ownPeer s, r.2)])) p

/-- R415 KRYDEOFT_MCWRITE. -/
def execKrydeoftMcwrite (s : State) : Result :=
  onUnit (okN s.arg.n) (match s.arg.pkt with
    | some p => mcWriteAnswer s p
    | none => s)

/-! Answers to requests of this package (R398, R399) -/

/-- R398, R399, R408, R450: the answer of a request of a memory-port entry, or its absence. -/
def entryAnswer (s : State) (r : Remote) (e k : Nat) (status : Nat) (bs : List Byte) : State :=
  match s.entry? e k with
  | none => s
  | some m =>
    let m1 : MemEntry :=
      if status = 0 then
        (if mLoad m then { m with data := spliceBytes m.data r.off bs } else if mAtomic m then { m with out0 := word (leNat bs) } else m)
      else { m with
        poison := if status != 3 && mLoad m then max 1 m.poison else 2
        data := if mOpc m = 0x4C then spliceBytes m.data r.off ((freeLine s).take r.n) else m.data }
    let s0 : State := if status != 0 && mOpc m == 0x4C then { s with free := s.free + 16 } else s
    let s1 : State := if !awaited s e k && mOpc m == 0x53 && bit m.attr 2 && m1.poison == 0 then { s0 with notices := s.notices ++ [field m.attr 3 11] } else s0
    let s2 : State := if status = 1 ∨ status = 2 then entryRecord s1 e m m.va else s1
    settleEntry (s2.setEntry e m1) e k

/-- R252, R253: the answer of a request of a sequencer ends its access, of class X for an atomic and L for a load (R35). (DEDUCED, unsafe: log 42.) -/
def seqAnswer (s : State) (r : Remote) (c : Nat) (status : Nat) (bs : List Byte) : State :=
  let q := s.seqOf c
  match q.wait with
  | some (.remote _ d n sx atomic va) =>
    if status = 0 then
      (if owed s (.seq c) then s
       else
        let q1 := (q.setReg (BitVec.ofNat 5 d) (extend n sx (leNat (bs.take n)))).finish (q.pc + 4) (if atomic then 4 else 1)
        s.setSeq c (if atomic then q1 else { q1 with loaded := BitVec.ofNat 5 d }))
    else { s with remotes := s.remotes.filter (fun x => x.owner != Owner.seq c) }.setSeq c (trapEntry cINTEGRITY 0 va false q.pc q)
  | some (.gather got va cur n) =>
    if status = 0 then s.setSeq c { q with wait := some (.gather got va (spliceBytes cur r.off bs) n) }
    else { s with remotes := s.remotes.filter (fun x => x.owner != Owner.seq c) }.setSeq c (trapEntry cINTEGRITY 0 (word va) false q.pc q)
  | _ => s

/-- R291, R408: the answer of a request of a copy command. -/
def cmdAnswer (s : State) (r : Remote) (c k : Nat) (status : Nat) (bs : List Byte) : State :=
  match (s.clusterOf c).ce.find? (fun y => y.id == k) with
  | none => s
  | some y =>
    if status = 0 then
      updCmd s c k (fun z => { z with getting := z.getting.map (fun g => (g.1, spliceBytes g.2 r.off bs)) })
    else
      let va := match y.getting with
        | some g => g.1
        | none => if y.signaled then field (y.words.getD 6 0) 0 58 else (cyPiece y r.off).2.1
      stopCmd { s with remotes := s.remotes.filter (fun x => x.owner != Owner.ce c k) } c y cINTEGRITY va

/-- R302, R305: the answer of a request of the Reeve for a packet. -/
def goAnswer (s : State) (r : Remote) (q id : Nat) (status : Nat) (bs : List Byte) : State :=
  match goOf s q id with
  | none => s
  | some g =>
    if status = 0 then updGo s q id (fun x => { x with getting := x.getting.map (fun v => (v.1, spliceBytes v.2 r.off bs)) })
    else failFault { s with remotes := s.remotes.filter (fun x => x.owner != Owner.queue q id) } q g cINTEGRITY

/-- R398, R399: a request has its answer, or will have none (status 3); an answer to no request is discarded. -/
def remoteEnds (s : State) (rid status : Nat) (bs : List Byte) : State :=
  match s.remotes.find? (fun r => r.rid == rid && !r.mc) with
  | none => s
  | some r =>
    let s1 : State := { s with remotes := s.remotes.filter (fun x => !(x.rid == rid)) }
    match r.owner with
    | .seq c => seqAnswer s1 r c status bs
    | .entry e k => entryAnswer s1 r e k status bs
    | .ce c k => cmdAnswer s1 r c k status bs
    | .queue q id => goAnswer s1 r q id status bs
    | .guest _ => s1

/-- R408: the status of an RDATA: POISON where its tag does not match under the key of the request, as this die holds it. -/
def rdataStatus (s : State) (p : KPacket) : Nat :=
  match s.remotes.find? (fun r => r.rid == p.rid && !r.mc) with
  | some r => if p.status = 0 ∧ p.tag ≠ packetTag s r.key r.addr p.data then 1 else p.status
  | none => p.status

/-- R401, R408 KRYDEOFT_RDATA. -/
def execKrydeoftRdata (s : State) : Result := onUnit (okN s.arg.n) (onPkt s (fun p => remoteEnds s p.rid (rdataStatus s p) p.data))

/-- R401 KRYDEOFT_WACK. -/
def execKrydeoftWack (s : State) : Result := onUnit (okN s.arg.n) (onPkt s (fun p => remoteEnds s p.rid p.status []))

/-- R399 REMOTE_REQUEST_TIMEOUT: request `k` of this package is given up. -/
def execRemoteRequestTimeout (s : State) : Result := .next (remoteEnds s s.arg.k 3 [])

/-- R416: the statuses that a bitmap holds, by peer. -/
def bitmapOf (bs : List Byte) : List (Nat × Nat) :=
  ((List.range 512).map (fun p => (p, field (wordAt bs (p / 32)) (2 * (p % 32)) 2))).filter (fun a => a.2 != 0)

/-- R415, R418: statuses of a multicast arrive. -/
def mcAcks (s : State) (rid : Nat) (acks : List (Nat × Nat)) : State :=
  let mine (r : Remote) : Option (Nat × Nat) := if r.rid = rid ∧ r.mc then acks.find? (fun a => a.1 == r.peer) else none
  let hits := s.remotes.filterMap (fun r => (mine r).map (fun a => (r.owner, a)))
  let s1 : State := { s with remotes := s.remotes.filter (fun r => (mine r).isNone) }
  hits.foldl (fun (st : State) (h : Owner × Nat × Nat) =>
    match h.1 with
    | .entry e k =>
      match st.entry? e k with
      | some m =>
        st.setEntry e { m with acks := m.acks ++ [h.2], st := if m.st = .away ∧ !awaited s1 e k then .performed else m.st }
      | none => st
    | _ => st) s1

/-- R418 KRYDEOFT_MACK. -/
def execKrydeoftMack (s : State) : Result := onUnit (okN s.arg.n) (onPkt s (fun p => mcAcks s p.rid (bitmapOf p.data)))

/-- R415 MCST_PEER_TIMEOUT: peer `p` has not answered the multicast request `k`. -/
def execMcstPeerTimeout (s : State) : Result := .next (mcAcks s s.arg.k [(s.arg.p, 3)])

/-! Credit and control packets (R400, R401) -/

/-- Change a Krydeoft port. -/
def updPort (s : State) (n : Nat) (f : KPort → KPort) : State := { s with kports := Tab.set s.kports n (f (kportOf s n)) }

/-- R400, R403: a port sends what it can. -/
def flushPort (s : State) (n : Nat) : State := portFlush ((kportOf s n).held.length + 1) s n

/-- R400: `n` flits of credit return for a channel: up to the 8 reserved to it, the rest to the shared credit. -/
def giveCredit (k : KPort) (vc n : Nat) : KPort :=
  let own := min n (8 - vget k.credits vc 0)
  { k with credits := vset k.credits vc (vget k.credits vc 0 + own), shared := k.shared + (n - own) }

/-- R400 KRYDEOFT_CREDIT: credit for `k` flits of the packet's channel returns on port `n`. -/
def execKrydeoftCredit (s : State) : Result :=
  onUnit (okN s.arg.n) (match s.arg.pkt with
    | some p => flushPort (updPort s s.arg.n (fun k => giveCredit k p.vc s.arg.k)) s.arg.n
    | none => s)

/-! Links (R402 to R404) -/

/-- R404: the links of the domain that are UP, each from both of its ends: a peer, its port and the peer beyond. An own end is UP as the port's STATE says. (DESIGN CHOICE, unsafe: log 77.) -/
def upLinks (s : State) : List (Nat × Nat × Nat) :=
  let open' (p n : Nat) : Bool := p != ownPeer s || (kportOf s n).st == .up
  (s.links.filter (fun l => l.up && open' l.a l.pa && open' l.b l.pb)).flatMap (fun l => [(l.a, l.pa, l.b), (l.b, l.pb, l.a)])

/-- A route that is not known yet: a peer and the own port that leads there, the lowest of several. -/
def addRoute (t : Tab Nat) (r : Nat × Nat) : Tab Nat := Tab.set t r.1 (min r.2 (Tab.getD t r.1 r.2))

/-- R404: routes, by peer, after one more hop from the peers `last` that the hop before has reached. -/
def spread (es : List (Nat × Nat × Nat)) : Nat → Tab Nat → Tab Nat → Tab Nat
  | 0, _, known => known
  | fuel + 1, last, known =>
    let next := last.flatMap (fun f => (es.filter (fun e => e.1 == f.1 && (Tab.get? known e.2.2).isNone)).map (fun e => (e.2.2, f.2)))
    if next.isEmpty then known
    else
      let reached := next.foldl addRoute []
      spread es fuel reached (reached.foldl addRoute known)

/-- R404: the port that leads to each peer reached: the first of a shortest path over UP links, the lowest port number where several serve. (DESIGN CHOICE, unsafe: log 77.) -/
def routes (s : State) : Tab Nat :=
  let es := upLinks s
  let first := (es.filter (fun e => e.1 == ownPeer s && e.2.2 != ownPeer s)).foldl (fun t e => addRoute t (e.2.2, e.2.1)) []
  Tab.del (spread es 512 first (Tab.set first (ownPeer s) 0)) (ownPeer s)

/-- R394, R404: REACH and NEXT of a peer after a recompute. -/
def routeWord (rs : Tab Nat) (p : Nat) (old : Word) : Word :=
  match Tab.get? rs p with
  | some n => setField old 53 9 (2 ^ 8 + n)
  | none => setField old 53 9 (field old 53 5)

/-- R404, R399: routes are recomputed; a request to a peer that is no longer reached has no answer to come. (DESIGN CHOICE, unsafe: log 77.) -/
def recompute (s : State) : State :=
  let rs := routes s
  let dom := (List.range 512).foldl (fun (t : Tab Word) (p : Nat) => Tab.set t p (routeWord rs p (Tab.getD s.dev.domain p 0))) s.dev.domain
  let s1 : State := s.updDev (fun d => { d with domain := dom })
  (s1.remotes.filter (fun r => !r.mc && !bit (domainOf s1 r.peer) 61)).foldl (fun (st : State) (r : Remote) =>
    st.due .remoteRequestTimeout { k := r.rid }) s1

/-- Two reports are of the same link: they name a common end. -/
def sameLink (l m : Link) : Bool :=
  (l.a == m.a && l.pa == m.pa) || (l.a == m.b && l.pa == m.pb) || (l.b == m.a && l.pb == m.pa) || (l.b == m.b && l.pb == m.pb)

/-- R401, R404 KRYDEOFT_LINK: the spec gives the packet no layout; here it reports a link of the domain, and routes are recomputed. (DESIGN CHOICE, unsafe: log 76.) -/
def execKrydeoftLink (s : State) : Result :=
  onUnit (okN s.arg.n) (match s.arg.link with
    | some l => recompute { s with links := s.links.filter (fun m => !sameLink l m) ++ [l] }
    | none => s)

/-- R403 KRYDEOFT_PORT_ENABLE: ENA of port `n` is written 1. -/
def execKrydeoftPortEnable (s : State) : Result :=
  onUnit (okN s.arg.n) (updPort s s.arg.n (fun k => { k with ena := true, st := if k.st = .down then .training else k.st }))

/-- R403 KRYDEOFT_PORT_DISABLE: ENA of port `n` is written 0. -/
def execKrydeoftPortDisable (s : State) : Result :=
  onUnit (okN s.arg.n) (
    let s1 : State := updPort s s.arg.n (fun k => { k with
      ena := false, st := if k.st = .up then .fencing else if k.st = .fenced then .down else k.st })
    if (kportOf s s.arg.n).st = .up then recompute s1 else s1)

/-- R402: LANES of a link trained on so many lanes. -/
def linkLanes (k : Nat) : Nat := if 8 ≤ k then 8 else if 4 ≤ k then 4 else 0

/-- R403 LINK_TRAINED: training of port `n` has ended, on `k` lanes with a partner's buffer of `q` flits, or failed. (DEDUCED, unsafe: log 79.) -/
def execLinkTrained (s : State) : Result :=
  onUnit (okN s.arg.n) (
    let n := s.arg.n
    if (kportOf s n).st != .training then s
    else if s.arg.ok && decide (4 ≤ s.arg.k) && decide (32 ≤ s.arg.q) then
      flushPort (recompute (updPort s n (fun k => { k with
        st := .up, lanes := linkLanes s.arg.k, capf := min s.arg.q 0xFFFF, credits := Vector.replicate 4 8, shared := min s.arg.q 0xFFFF - 32 }))) n
    else flushPort (recompute (updPort s n (fun k => { k with st := .fencing }))) n)

/-- R403 LINK_ERROR: a lane or buffer error of port `n`. (DEDUCED, unsafe: log 78.) -/
def execLinkError (s : State) : Result :=
  onUnit (okN s.arg.n) (
    if (kportOf s s.arg.n).st = .up then
      recompute (updPort s s.arg.n (fun k => { k with st := .training, retrn := k.retrn + 1 }))
    else s)

/-- R403: a FENCING link ends FENCED, or DOWN when ENA = 0. -/
def fenced (k : KPort) : KPort := { k with st := if k.ena then .fenced else .down }

/-- R403 FENCING_DRAINED: the buffer of port `n` is empty. -/
def execFencingDrained (s : State) : Result :=
  onUnit (okN s.arg.n) (
    let k := kportOf s s.arg.n
    if k.st = .fencing ∧ k.held.isEmpty then recompute (updPort s s.arg.n fenced) else s)

/-- R403 FENCING_TIMEOUT: 2^20 port cycles of FENCING are over: what port `n` holds is discarded and counted. -/
def execFencingTimeout (s : State) : Result :=
  onUnit (okN s.arg.n) (
    let n := s.arg.n
    let k := kportOf s n
    if k.st = .fencing then
      recompute ((updPort s n (fun k => fenced { k with held := [] })).count (0x0300 + 8 * n) k.held.length)
    else s)

/-! Bridges (R391, R392) -/

/-- R84, R391: the die of an element. -/
def dieOf (e : Nat) : Nat := clusterOfElem e / 96

/-- R112, R391: the cluster to which a route leads: that of its target element, of its copy engine, or of the guest edge port of its plot. -/
def routeCluster (rt : Word) : Nat := if rtTGT rt = 0 then clusterOfElem (rtElem rt) else rtPLOT rt / 4

/-- R392: the token at the head of a route whose path crosses bridge `n` is lost there: it becomes POISON, and the beat is counted. (DESIGN CHOICE, safe: log 80.) -/
def beatToken (s : State) (e x r n : Nat) : State :=
  let rt := vget (s.ctxOf e x).routes r 0
  if rtV rt && (packetBridges (dieOf e) (routeCluster rt / 96)).contains n then
    match fifoHead s e x r with
    | none => s
    | some t =>
      let free := Config.freeWord s.free
      let u : Tok := { t with kind := .poison, payload := free, tile := none, slotRef := none }
      countPoison ((s.draw.count (0x0138 + 8 * n) 1).updCtx e x (fun c => { c with fifo := vset c.fifo r (u :: (vget c.fifo r []).drop 1) }))
        (routeCluster rt) 1
  else s

/-- R392: whose packet a beat belongs to: entry `k` of element `e`'s port, command `k` of a copy engine, the sequencer of cluster `c`, the Reeve, a peer whose request came in at
port `k`, or the host. -/
def beatWho (a : Arg) : BeatOf :=
  match a.q with
  | 0 => .entry a.e a.k
  | 1 => .ce a.k
  | 2 => .seq a.c
  | 4 => .port a.k
  | 5 => .host
  | _ => .reeve

/-- R391, R392: an entry that has been sent has data under way over bridge `n`: data read on its way from the home, data written on its way there. -/
def entryCrosses (s : State) (e : Nat) (m : MemEntry) (n : Nat) : Bool :=
  (m.st == .sent || m.st == .away) && m.lines.any (fun l =>
    (!mLoad m && (packetBridges (dieOf e) (homeDie s l.loc)).contains n)
      || ((mLoad m || mAtomic m) && (packetBridges (homeDie s l.loc) (dieOf e)).contains n))

/-- R391, R392: a packet with data may be under way over bridge `n`; where the accesses of sequencers, copy engines and the Reeve go is seen as they are made. -/
def beatUnderWay (s : State) (o : BeatOf) (n : Nat) : Bool :=
  match o with
  | .entry e k => (s.entry? e k).any (fun m => entryCrosses s e m n)
  | _ => true

/-- R392: the failed retransmissions of a beat on bridge `n`; 5 for one that is lost. -/
def beatTries (s : State) (o : BeatOf) (n : Nat) : Nat := ((s.retries.find? (fun r => r.1 == n && r.2.1 == o)).map (fun r => r.2.2)).getD 0

/-- The failed retransmissions of a beat are counted. -/
def setTries (s : State) (o : BeatOf) (n v : Nat) : State :=
  { s with retries := (s.retries.filter (fun r => !(r.1 == n && r.2.1 == o))) ++ [(n, o, v)] }

/-- R392: the data of an entry's access has been lost on a bridge: it becomes POISON. -/
def beatEntry (s : State) (o : BeatOf) : State :=
  match o with
  | .entry e k =>
    match s.entry? e k with
    | none => s
    | some m => (beatsPast s o).setEntry e { m with poison := if mLoad m then max 1 m.poison else 2 }
  | _ => s

/-- R392 BRIDGE_BEAT_ERROR: bridge `n` of R391 finds a beat in error, of route `r` of a context or of a packet that crosses it: it is corrected, it is sent again, or, after
4 retransmissions, its data is lost. (DESIGN CHOICE, safe: log 80.) -/
def execBridgeBeatError (s : State) : Result :=
  onUnit (decide (s.arg.n < 7) && okX s.arg.e s.arg.x) (
    let n := s.arg.n
    let b := 8 * n
    let o := beatWho s.arg
    match s.arg.beat with
    | .corrected => s.count (0x00C8 + b) 1
    | .retransmitted => if beatUnderWay s o n && decide (beatTries s o n < 4) then setTries (s.count (0x0100 + b) 1) o n (beatTries s o n + 1) else s
    | .packetLost => if beatUnderWay s o n && beatTries s o n == 4 then beatEntry (setTries (s.count (0x0138 + b) 1) o n 5) o else s
    | .streamLost => beatToken s s.arg.e s.arg.x s.arg.r n)

/-! Errors in storage (R16, R447, R450) -/

/-- A unit in error is listed once. -/
def listErr (l : List Nat) (n : Nat) : List Nat := if l.contains n then l else n :: l

/-- R16, R447, R450: a unit of storage meets an error: a single-bit one is corrected and counted, another stays with the unit. A corrected flit of a link is
counted; one that cannot be corrected is sent again, which R401 and R403 show. -/
def upset (s : State) (u : ErrAt) (corrected : Bool) : State :=
  match u with
  | .seqWord c w =>
    if !(okC c && decide (8 * w < windowSize)) then s
    else if corrected then s.count (0x1000 + 32 * c) 1
    else s.setSeq c { s.seqOf c with memErr := listErr (s.seqOf c).memErr w }
  | .commons c w =>
    if !(okC c && decide (8 * w < 2 ^ 22)) then s
    else if corrected then s.count (0x1008 + 32 * c) 1
    else s.updCluster c (fun k => { k with comErr := listErr k.comErr w })
  | .pool e x w =>
    if !(okX e x && decide (8 * w < 4096 * pSum (s.ctxOf e x).part)) then s
    else if corrected then s.count (0x1008 + 32 * clusterOfElem e) 1
    else s.updCtx e x (fun c => { c with poolErr := listErr c.poolErr w })
  | .hbm l =>
    if !hbmPresent s (128 * l) then s
    else if corrected then s.count (0x0008 + 8 * stackOf (128 * l)) 1
    else { s with hbmErr := listErr s.hbmErr l }
  | .link n => if okN n && corrected then s.count (0x0200 + 8 * n) 1 else s

end Sys2Proof.Machine
end

