-- ==== Sys2Proof/Machine/Platform.lean ====
section
/-! DEFINITION. The platform (R410, R411, R436 to R449): cold reset and bring-up, keys and attestation, host accesses, snapshots, power. -/

namespace Sys2Proof.Machine

/-! Bring-up (R444, R449) -/

/-- The bytes of a measurement register. -/
def mregBytes (m : BitVec 256) : List Byte := leBytes 32 m.toNat

/-- R444: a measurement register extended by `d`. -/
def mregExtend (m : BitVec 256) (d : List Byte) : BitVec 256 := BitVec.ofNat 256 (leNat (sha3 (mregBytes m ++ d)))

/-- R297, R444: the sealing key that a cold reset draws. (DESIGN CHOICE, safe: log 86.) -/
def drawnKey (n : Nat) : BitVec 256 :=
  Config.freeWord (n + 3) ++ Config.freeWord (n + 2) ++ Config.freeWord (n + 1) ++ Config.freeWord n

/-- R445: the response area while no request has been answered. -/
def identityArea : List Byte := Config.identityKey.toList

/-- R444, R449 COLD_RESET: every block is at its reset value; the firmware `bytes` is verified (`ok`) and measured. HBM keeps its contents, the host and
the guest theirs. (DESIGN CHOICE, unsafe: log 7.) (DEDUCED, safe: log 82.) -/
def execColdReset (s : State) : Result :=
  .next (
    let d0 := { devReset with secrets := s.dev.secrets, sealKey := drawnKey s.free }
    let d1 : Dev :=
      if s.arg.ok then
        { d0 with boot := 1, mreg := vset d0.mreg 0 (mregExtend 0 (sha3 s.arg.bytes)), response := identityArea }
      else { d0 with boot := 2 }
    { State.reset with
      inputs := s.inputs, turn := s.turn, free := s.free + 4, hbm := s.hbm, hbmKey := s.hbmKey, hbmErr := s.hbmErr
      hostMem := s.hostMem, guestMem := s.guestMem, out := s.out, dev := d1 })

/-- R440, R449 GO: MEMCFG from DOMCFG, MREG1 extended, BOOT 0. (DEDUCED, unsafe: log 85.) -/
def execGo (s : State) : Result :=
  .next (
    if s.dev.boot = 1 ∧ !s.dev.goDone then
      s.updDev (fun d => { d with
        boot := 0, goDone := true, memcfg := maskWrite 0 d.domcfg 0x3FF0000003F
        mreg := vset d.mreg 1 (mregExtend (vget d.mreg 1 0) (leBytes 8 d.domcfg.toNat)) })
    else s)

/-! Host register writes (R439) -/

/-- R436: the sizes of the device's two address ranges. -/
def barSize (bar : Nat) : Nat := if bar = 0 then 2 ^ 30 else if bar = 2 then 2 ^ 16 else 0

/-- An access of `n` bytes at an offset of a range, aligned to its size. -/
def barAccess (bar o n : Nat) : Bool := decide (o + n ≤ barSize bar) && [1, 2, 4, 8].contains n && o % n == 0

/-- R436, R439: the value that a host reads: a register, or bytes of the MSI-X table and PBA. -/
def barRead (s : State) (bar o n : Nat) : Option Nat :=
  if bar = 0 then devRead s o n else some (leNat (memRead s.dev.bar2 o n))

/-- R439, R442: a host write of `n` bytes of value `v` at BAR0 offset `k`, aligned to its size; or, in the same event, a host read of BAR0, a read or a write of BAR2 (R436). (DESIGN CHOICE, safe: log 81.) (DESIGN CHOICE, unsafe: log 144.) -/
def execRegisterWrite (s : State) : Result :=
  match s.arg.hdm with
  | some (.barRead bar o n) => onUnit (barAccess bar o n) (s.emitOut (.bar (barRead s bar o n)))
  | some (.barWrite 2 o bs) => onUnit (barAccess 2 o bs.length) (s.updDev (fun d => { d with bar2 := memWrite d.bar2 o bs }))
  | _ => onUnit (barAccess 0 s.arg.k s.arg.n) (devWrite s s.arg.k s.arg.n s.arg.v.toNat)

/-! Keys (R410, R411, R445) -/

/-- R410: the fields of a provisioning message. -/
def pmKIDX (b : List Byte) : Nat := leAt b 0 2
def pmOP (b : List Byte) : Nat := leAt b 2 1
def pmPIDX (b : List Byte) : Nat := leAt b 3 1
def pmSERIAL (b : List Byte) : Nat := leAt b 8 8

/-- R445: the transport key of the session that a message names. -/
def sessionKey (s : State) (b : List Byte) : Option (List Byte) :=
  (s.dev.sessions.find? (fun x => x.1.toNat == leAt b 16 16)).map (fun x => leBytes 32 x.2.toNat)

/-- R410: bytes 32 to 63 of a message. -/
def pmSealed (b : List Byte) : List Byte := (b.drop 32).take 32

/-- R410: the GCM tag of a message verifies under its session's key. -/
def pmTagOk (s : State) (b : List Byte) : Bool :=
  match sessionKey s b with
  | some k => gcmTag k ((b.drop 64).take 12) (b.take 32) (pmSealed b) == (b.drop 80).take 16
  | none => false

/-- R410: the secret that an INSTALL carries. -/
def pmSecret (s : State) (b : List Byte) : List Byte :=
  match sessionKey s b with
  | some k => gcmCtr (roundKeys k) ((b.drop 64).take 12) (pmSealed b)
  | none => []

/-- R410, R445: why a message is not accepted: 1 tag, 2 serial, 3 range, 4 partition; 0 where it is. (DEDUCED, unsafe: log 90.) -/
def pmReason (s : State) (b : List Byte) : Nat :=
  if !pmTagOk s b then 1
  else if pmSERIAL b ≤ (keyEntry s (pmKIDX b)).serial then 2
  else if pmKIDX b = 0 ∨ 8191 < pmKIDX b then 3
  else if !bit (partitionOf s (pmPIDX b)).w0 63 then 4
  else 0

/-- R445: the receipt of a message. -/
def receipt (s : State) (b : List Byte) (reason : Nat) : State :=
  let body := Config.receiptBody (pmKIDX b) (pmOP b) (pmSERIAL b) (reason == 0) reason
  s.updDev (fun d => { d with receipt := body ++ (Config.signature body).toList })

/-- Change a key-table entry. -/
def updKey (s : State) (k : Nat) (f : Key → Key) : State := s.updDev (fun d => { d with keys := Tab.set d.keys k (f (Tab.getD d.keys k keyReset)) })

/-- The place of a secret among those installed so far, from 1, and the secrets with it. -/
def placeSecret (l : List (List Byte)) (x : List Byte) : Nat × List (List Byte) :=
  match l.findIdx? (· == x) with
  | some i => (i + 1, l)
  | none => (l.length + 1, l ++ [x])

/-- R410: a key is installed. -/
def installKey (s : State) (b : List Byte) : State :=
  let r := placeSecret s.dev.secrets (pmSecret s b)
  updKey (s.updDev (fun d => { d with secrets := r.2 })) (pmKIDX b) (fun _ =>
    { v := true, pidx := pmPIDX b, serial := pmSERIAL b % 2 ^ 32, secret := pmSecret s b, sid := r.1, revoking := false })

/-- R410, R444: a message of one of the two operations is judged, performed where it is accepted, and answered; one of any other OP is judged and answered, and performs
nothing; not with BOOT = 2. -/
def provision (s : State) (op : Nat) (act : State → List Byte → State) : State :=
  let b := s.arg.bytes
  if s.dev.boot = 2 || (pmOP b != op && decide (pmOP b ≤ 1)) || b.length != 128 then s
  else
    let reason := pmReason s b
    receipt (if reason = 0 ∧ pmOP b = op then act s b else s) b reason

/-- R410 PROVISIONING_INSTALL. -/
def execProvisioningInstall (s : State) : Result := .next (provision s 0 installKey)

/-- R410, R411 PROVISIONING_REVOKE: V is cleared; the secret stays for the lines already sent. (DEDUCED, safe: log 91.) -/
def execProvisioningRevoke (s : State) : Result :=
  .next (provision s 1 (fun st b => updKey st (pmKIDX b) (fun k => { k with v := false, serial := pmSERIAL b % 2 ^ 32, revoking := true })))

/-- R411: no line translated under a key is still to perform. -/
def keyQuiet (s : State) (k : Nat) : Bool :=
  s.elems.all (fun e => e.2.port.all (fun m => mPerformed m || m.dead || m.lines.all (fun l => l.key != k)))
    && s.remotes.all (fun r => r.key != k)

/-- R411 REVOKE_COMPLETE: every line sent under key `k` has performed or been discarded. -/
def execRevokeComplete (s : State) : Result :=
  .next (
    if (keyEntry s s.arg.k).revoking && s.arg.k != 0 && keyQuiet s s.arg.k then
      updKey s s.arg.k (fun k => { k with secret := [], sid := 0, revoking := false })
    else s)

/-! Attestation (R445) -/

/-- R445, R444 ATTESTATION_REQUEST: NONCE and an ML-KEM-768 public key; a session is made and the response signed. The oldest of seventeen sessions ends. A request of 32 bytes
for register `k`, 2 to 7, has the Reeve extend that MREG. With BOOT = 2 it does not answer. (DESIGN CHOICE, unsafe: log 142.) -/
def execAttestationRequest (s : State) : Result :=
  .next (
    let b := s.arg.bytes
    if s.dev.boot = 2 then s
    else if b.length = 32 ∧ 2 ≤ s.arg.k ∧ s.arg.k ≤ 7 then
      s.updDev (fun d => { d with mreg := vset d.mreg s.arg.k (mregExtend (vget d.mreg s.arg.k 0) b) })
    else if b.length != 1216 then s
    else
      let n := s.free
      let session : BitVec 128 := Config.freeWord (n + 1) ++ Config.freeWord n
      let pk := b.drop 32
      let key := BitVec.ofNat 256 (leNat (kmac256 (Config.kemSecret pk (n + 2)).toList [] 32 "SESS"))
      let body := leBytes 8 Config.pkgId.toNat ++ s.dev.mreg.toList.flatMap mregBytes ++ b.take 32 ++ leBytes 16 session.toNat
        ++ (Config.kemCipher pk (n + 2)).toList
      let old := if s.dev.sessions.length < 16 then s.dev.sessions else s.dev.sessions.drop 1
      { s with free := n + 3 }.updDev (fun d => { d with sessions := old ++ [(session, key)], response := body ++ (Config.signature body).toList }))

/-! Host memory accesses (R412, R436, R438) -/

/-- R438: `n` bytes at an offset of the HDM range lie in package-interleaved HBM. -/
def hdmRange (s : State) (a n : Nat) : Bool := decide (a + n ≤ 12 * stackInterleaved s)

/-- R412: HDMKEY names an installed key; zero disables the range. -/
def hdmOpen (s : State) : Bool := s.dev.hdmkey != 0 && (keyEntry s s.dev.hdmkey).v

/-- R438, R412, R358, R392, R450 HOST_HDM_ACCESS. (DEDUCED, safe: log 93.) -/
def execHostHdmAccess (s : State) : Result :=
  .next (match s.arg.hdm with
    | none => s
    | some (.read a n) =>
      if !(hdmOpen s && hdmRange s a n) then s.emitOut (.hdm .abort)
      else
        match lineBusy s false a n, readHbm s s.dev.hdmkey a n with
        | some line, _ => stallOn s line (.event .hostHdmAccess s.arg)
        | none, some bs =>
          if beatLost s .host (homeDie s (.hbm a)) (homeDie s (.host 0)) then (beatsPast s .host).emitOut (.hdm .bad) else s.emitOut (.hdm (.data bs))
        | none, none =>
          (match firstBad s s.dev.hdmkey a n with
          | some x => countBad s (.hbm x)
          | none => s).emitOut (.hdm .bad)
    | some (.write a bs) =>
      if !(hdmOpen s && hdmRange s a bs.length) then s.emitOut (.hdm .abort)
      else if bs.isEmpty then s
      else
        match lineBusy s true a bs.length with
        | some line => stallOn s line (.event .hostHdmAccess s.arg)
        | none => writeHbmLines (bs.length + 1) s s.dev.hdmkey a bs
    | some _ => s)

/-- R436 HOST_SNOOP: the device holds no host line. -/
def execHostSnoop (s : State) : Result := .next (s.emitOut (.snoopRsp s.arg.k))

/-! Snapshots (R446) -/

/-- R446, R447: the blocks that latch: those that hold counters (`blockOf`; package control stands with the host port), the guest engine socket (624) and the Reeve with its
queues (625). (DEDUCED, unsafe: log 92.) -/
def snapBlocks : List Nat := List.range 626

/-- R20, R402, R420, R439, R442, R446: the status registers of a block, by their offsets: package control's RSTCTL and PWR, a Krydeoft port's KPST, a cluster's STATUS and
SEQCTL, GPST with the guest contexts, and word 0 of the queues in use. (DEDUCED, unsafe: log 92.) -/
def statusRegs (s : State) (b : Nat) : List (Nat × Word) :=
  let at' (o : Nat) : Nat × Word := (o, (regRead s o).getD 0)
  if b = 0 then [at' 0x08, at' 0x38]
  else if 20 ≤ b ∧ b < 44 then [at' (0x420000 + 8 * (b - 20))]
  else if 48 ≤ b ∧ b < 624 then
    let w := 0x10000000 + 0x80000 * (b - 48)
    [(w + 0x40000, (s.seqOf (b - 48)).status), at' (w + 0x7F000)]
  else if b = 624 then at' 0x430008 :: (Tab.keys s.guest.ctxs).map (fun c => at' (0x430800 + 8 * c))
  else if b = 625 then (Tab.keys s.queues).map (fun q => at' (0x100000 + 256 * q))
  else []

/-- R446: the block of a status register's latched copy. -/
def statusBlock (o : Nat) : Nat :=
  if 0x10000000 ≤ o then 48 + (o - 0x10000000) / 0x80000
  else if 0x430000 ≤ o then 624
  else if 0x420000 ≤ o then 20 + (o - 0x420000) / 8
  else if 0x100000 ≤ o then 625
  else 0

/-- R446: block `b` latches: its counters and its status registers are copied. -/
def latchBlock (s : State) (b : Nat) : State :=
  if !s.dev.latching.contains b then s
  else
    s.updDev (fun d => { d with
      latching := d.latching.filter (· != b)
      snap := (d.counters.filter (fun c => blockOf c.1 == b)).foldr (fun c t => Tab.set t c.1 c.2) (d.snap.filter (fun c => blockOf c.1 != b))
      snapRegs := (statusRegs s b).foldl (fun t c => Tab.set t c.1 c.2) (d.snapRegs.filter (fun c => statusBlock c.1 != b)) })

/-- R446: a trigger begins a latch of every block, SEQ + 1; where one is in progress it joins that one. -/
def trigger (s : State) : State :=
  if s.dev.latching.isEmpty then s.updDev (fun d => { d with snapSeq := d.snapSeq + 1, latching := snapBlocks }) else s

/-- R446 SNAPSHOT_TRIGGER. -/
def execSnapshotTrigger (s : State) : Result := .next (trigger s)

/-- R446: the latch with a given SEQ is complete. -/
def latched (s : State) (seq : BitVec 32) : Bool := s.dev.latching.isEmpty || s.dev.snapSeq != seq

/-- R446 SNAP: it triggers or joins a latch, and once every block has latched writes SEQ and g[a][15:0] into g[d]. Class P: 12 cycles. -/
def execSnap (d a : BitVec 5) (s : State) : Result :=
  .next (kernelOnly (.snap d a) s (
    match s.me.wait with
    | some (.snap seq) =>
      if latched s seq then s.result d (word (at' seq.toNat 32 + field (s.reg a) 0 16)) 12 else s
    | _ =>
      let s1 : State := trigger s
      s1.setMe { s1.me with wait := some (.snap s1.dev.snapSeq) }))

/-! Power (R448) -/

/-- R448 POWER_SAMPLE: PMW is measured, in mW, once every 1,350,000 Reeve cycles. -/
def execPowerSample (s : State) : Result :=
  .next ({ s with reeveCyc := s.reeveCyc + 1350000 }.updDev (fun d => { d with pmw := s.arg.k % 2 ^ 32 }))

/-- R448 INLET_TEMPERATURE_LIMIT: the cold plate's inlet temperature is above its limit; clocks are lowered, and no result changes. (DEDUCED, safe: log 94.) -/
def execInletTemperatureLimit (s : State) : Result := .next (s.updDev (fun d => { d with tinlet := s.arg.k % 2 ^ 16 }))

end Sys2Proof.Machine
end

