-- ==== Sys2Proof/Machine/Guest.lean ====
section
/-! DEFINITION. The guest engine socket (R419 to R435): its port, guest queue packets and their completions, the coherent port, grants, the duties of the
guest and their breaches. Events name a guest context `k`, a return tag `r` and a device-global address `n`. -/

namespace Sys2Proof.Machine

/-! Breaches (R433, R434) -/

/-- R431, R434: the ELEM of the GES: die 5, cluster 127, element 15. -/
def gesElem : Nat := 0x2FFF

/-- R434 step 1: the guest's copies are gone, and what waited for them is due. -/
def dropAllCopies (s : State) : State :=
  unstall (s.updGuest (fun g => { g with copies := [], recalls := [] }))

/-- R434 step 2: every outstanding packet will be answered with POISON. (DEDUCED, unsafe: log 105.) -/
def poisonTags (s : State) : State :=
  let tags := s.guest.tags.map (fun t => (t.1, { t.2 with
    poison := true
    done := some (t.2.done.getD (1, cGUEST, 0))
    ord := if t.2.done.isSome then t.2.ord else s.nextCmd + t.1 }))
  { s with nextCmd := s.nextCmd + 1024 }.updGuest (fun g => { g with tags := tags })

/-- R434 step 3: a record at the home of each frame that had a packet outstanding, and one at die 5, cluster 0. (DEDUCED, unsafe: log 107.) -/
def breachRecords (s : State) (cause : Nat) : State :=
  let rec0 : Record := { recordZero with fval := word cause, elem := gesElem, opc := 0x56, code := cGUEST, kind := 6 }
  let frames := (s.guest.tags.map (fun t => (t.2.plid, t.2.tag.frame.toNat))).eraseDups
  sendRecord (frames.foldl (fun (st : State) (f : Nat × Nat) =>
    sendRecord st (st.frameOf f.1 f.2).home { rec0 with frm := frmField f.1 f.2 (st.frameOf f.1 f.2).gen }) s) 480 rec0

/-- A line in guest memory. -/
def guestLine (l : Line) : Bool :=
  match l.loc with
  | .guest _ => true
  | _ => false

/-- R366: the appends that the guest's writes hold wait no longer. -/
def dropGuestHolds (s : State) : State :=
  s.guest.tags.foldl (fun st t => logDrop st t.2.plid t.2.tag.frame.toNat (fun h => h.kind == 4 && h.num == t.1)) s

/-- R434 step 4: accesses to guest memory in flight end with POISON, and every command with FENCED. -/
def breachEnds (s : State) : State :=
  let s0 : State := { s with posted := s.posted.filter (fun w => outPort w.loc != some 1) }
  let s1 : State := { s0 with elems := s0.elems.map (fun e => (e.1, { e.2 with port := e.2.port.map (fun m =>
    if (m.st = .sent ∨ m.st = .away) ∧ m.lines.any guestLine then
      { m with poison := 2, todo := [], st := if awaited s0 e.1 m.id then .away else .performed } else m) })) }
  prioEnds (s1.updGuest (fun g => { g with ctxs := g.ctxs.map (fun c =>
    (c.1, { c.2 with cst := .run, lres := if guestBusy c.2 then 2 else c.2.lres, grants := [], invs := [] })) }))

/-- R435: a FENCED port with ENA = 0 goes DOWN once R434 is done, which is when the return-tag table is empty. -/
def fencedOrDown (g : Guest) : GuestSt := if g.ena || !g.tags.isEmpty then .fenced else .down

/-- R435: a FENCED port, after its last tag has left or ENA was written 0. -/
def afterTag (g : Guest) : Guest := { g with st := if g.st = .fenced then fencedOrDown g else g.st }

/-- R434: the port is fenced for a cause; with ENA = 0 it goes on to DOWN (R435). -/
def breach (s : State) (cause : Nat) : State :=
  if s.guest.st != .active then s
  else
    let s0 : State := s.guest.ctxs.foldl (fun st c => walksPast st (.guest c.1)) (dropGuestHolds s)
    let s1 : State := s0.updGuest (fun g => { g with st := fencedOrDown g, cause := cause, fences := g.fences + 1, pend := [] })
    let s2 : State := dropAllCopies { s1 with invals := s1.invals.map (fun v => { v with guests := [] }) }
    breachEnds ((breachRecords (poisonTags s2) cause).emitOut (.msix s2.guest.fvec))

/-- A message of the guest, for a guest context that the socket has: none is taken unless the port is ACTIVE (R434), and one for a PAUSED context is a
breach (R433). -/
def onMessage (s : State) (cid : Nat) (k : State → State) : State :=
  if s.guest.st != .active then s
  else if 256 ≤ cid then breach s 6
  else if (guestCtxOf s cid).cst = .paused then breach s 3
  else k s

/-! The port (R435) -/

/-- R435 GUEST_PORT_ENABLE. -/
def execGuestPortEnable (s : State) : Result :=
  .next (s.updGuest (fun g => { g with ena := true, st := if g.st = .down then .training else g.st }))

/-- R435, R434 GUEST_PORT_DISABLE: an ACTIVE port is fenced with CAUSE 7, a FENCED one goes DOWN once R434 is done. -/
def execGuestPortDisable (s : State) : Result :=
  .next (
    let s1 : State := s.updGuest (fun g => afterTag { g with ena := false })
    breach s1 7)

/-- R435 GUEST_LINK_TRAINED: training has ended with `n` modules; an ACTIVE port begins with no grants and no return tags. -/
def execGuestLinkTrained (s : State) : Result :=
  .next (
    if s.guest.st != .training then s
    else if s.arg.ok && s.arg.n == 4 then
      s.updGuest (fun g => { g with st := .active, tags := [], ctxs := g.ctxs.map (fun c => (c.1, { c.2 with grants := [], invs := [] })) })
    else s.updGuest (fun g => { g with st := .down, ena := false }))

/-! Device commands (R430) -/

/-- R430 GUEST_PAUSE. -/
def execGuestPause (s : State) : Result := onUnit (decide (s.arg.k < 256)) (guestPauseOp s s.arg.k)

/-- R430 GUEST_RESUME. -/
def execGuestResume (s : State) : Result := onUnit (decide (s.arg.k < 256)) (guestResumeOp s s.arg.k)

/-- R430 GUEST_SAVE. -/
def execGuestSave (s : State) : Result :=
  onUnit (decide (s.arg.k < 256)) (guestCommand s s.arg.k .paused .saving s.guest.cmd1 (.save s.arg.k s.guest.cmd1))

/-- R430 GUEST_RESTORE. -/
def execGuestRestore (s : State) : Result :=
  onUnit (decide (s.arg.k < 256)) (guestCommand s s.arg.k .paused .restoring s.guest.cmd1 (.restore s.arg.k s.guest.cmd1))

/-- R420: the bytes of a region. -/
def regionSize (w : Word) : Nat := (field w 52 12 + 1) * 4096

/-- R430: a reply to the command that a context has under way; another reply is a malformed message (R433). -/
def guestReply (s : State) (st : GuestCst) : State :=
  onMessage s s.arg.k (fun t =>
    if (guestCtxOf t t.arg.k).cst = st then prioEnds (updGuestCtx t t.arg.k (fun k => { k with cst := .paused, lres := 1 })) else breach t 6)

/-- R430 PAUSED. -/
def execPaused (s : State) : Result := .next (guestReply s .pausing)

/-- R430, R433 SAVED: the context's state of `n` bytes is saved. -/
def execSaved (s : State) : Result :=
  .next (
    let g := guestCtxOf s s.arg.k
    if s.guest.st = .active ∧ g.cst = .saving ∧ regionSize g.region < s.arg.n then breach s 4 else guestReply s .saving)

/-- R430 RESTORED. -/
def execRestored (s : State) : Result := .next (guestReply s .restoring)

/-! Packets (R425, R426, R432) -/

/-- The head of a route to the guest edge port. -/
def gqpHead (s : State) (e x r : Nat) : Option Tok :=
  let rt := vget (s.ctxOf e x).routes r 0
  if rtV rt && rtTGT rt == 1 && rtEPN rt == 1 then fifoHead s e x r else none

/-- R425: the lowest free return tag. -/
def freeTag (g : Guest) : Option Nat := (List.range 1024).find? (fun k => (Tab.get? g.tags k).isNone)

/-- R422: word 0 of a packet. -/
def pkW0 (t : Tok) : Word := wordAt (t.tile.getD []) 0

/-- R425, R423: a packet can be accepted. (DEDUCED, safe: log 96.) -/
def gqpAccepts (s : State) (e x r : Nat) : Bool :=
  match gqpHead s e x r with
  | none => false
  | some t =>
    let c := s.ctxOf e x
    targetOpen s c r && (staleTok s (clusterOfElem e) c.plid t || (t.spec == 0 && s.guest.st == .active && (freeTag s.guest).isSome
      && (guestCtxOf s (field (pkW0 t) 52 8 % 256)).cst == .run))

/-- R366: the append that the packet on a route holds. -/
def packetHolder (e x r : Nat) : Holder := { kind := 3, loc := e, num := 16 * x + r, va := 0 }

/-- R422: CID of a packet. -/
def pkCID (t : Tok) : Nat := field (pkW0 t) 48 8

/-- R432: a guest-defined packet of a frame that logs appends one IRREVOCABLE entry before it is forwarded; false where there is no room. (DESIGN CHOICE, unsafe: log 97.) -/
def gqpLog (s : State) (p : Nat) (t : Tok) (holder : Holder) : State × Bool :=
  let f := t.frame.toNat
  let g := (s.frameOf p f).log
  let m := t.cmd.getD noSource
  let w : Writer := { p := p, f := f, win := m.win, iter := m.iter, elem := gesElem, cs := 0, spec := m.spec }
  if g.mode = 0 || !bit (pkW0 t) 63 then (s, true)
  else if g.exempt.contains holder then (logDrop s p f (· == holder), true)
  else if logRoom g (entrySize 0) then
    match copyAmong s (ringPieces g g.tail (entrySize 0)) with
    | some line => (recallLine s line, false)
    | none => (appendEntry (logDrop s p f (· == holder)) p f {
      va := 0, loc := at' 2 62, win := m.win, iter := m.iter, elem := gesElem, cs := 0, kind := lgIRREV,
      undone := false, spec := m.spec, flen := 0, data := [] }, true)
  else (logHeld s w holder (entrySize 0) 0, false)

/-- R425 GQP_ACCEPT: the packet at the front of a route is accepted: its return tag is taken, custody moves, and it is forwarded to the guest. -/
def execGqpAccept (s : State) : Result :=
  onUnit (okX s.arg.e s.arg.x) (
    let e := s.arg.e
    let x := s.arg.x
    let r := s.arg.r
    match gqpHead s e x r, freeTag s.guest with
    | some t, tag? =>
      let c := s.ctxOf e x
      let cl := rtPLOT (vget c.routes r 0) / 4
      if !targetOpen s c r then s
      else if staleTok s (clusterOfElem e) c.plid t then
        staleDrop (logDrop (popFifo s e x r) c.plid t.frame.toNat (· == packetHolder e x r)) (clusterOfElem e) c.plid t
      else if t.kind == .poison then
        leaveFifo (logDrop s c.plid t.frame.toNat (· == packetHolder e x r)) e x r c.plid t
      else if t.spec != 0 || s.guest.st != .active || (guestCtxOf s (pkCID t)).cst != .run then s
      else
        match tag? with
        | none => s
        | some k =>
          match gqpLog s c.plid t (packetHolder e x r) with
          | (s1, false) => s1
          | (s1, true) =>
            let w0 := pkW0 t
            let rt : RTag := {
              cl := cl, vp := c.vp, el := c.el, plid := c.plid, tag := { t with tile := none, slotRef := none, payload := 0 },
              ret := field w0 44 4, fqc := field w0 32 10, cid := pkCID t, win := (t.cmd.getD noSource).win, gop := field w0 56 8,
              done := none, ord := 0, poison := false }
            let words := setField w0 22 10 k :: (wordsOf 8 ((t.tile.getD []).take 64)).drop 1
            let s2 : State := toGuest (s1.updGuest (fun g => { g with tags := Tab.set g.tags k rt })) (.gqp k words)
            leaveFifo (touch s2 cl c.plid t.frame.toNat t.gen) e x r c.plid t
    | none, _ => s)

/-- A return tag whose packet the guest has not ended. -/
def tagOpen (s : State) (r : Nat) : Option RTag := (Tab.get? s.guest.tags r).filter (fun t => t.done.isNone)

/-- Change a return tag. -/
def updTag (s : State) (r : Nat) (f : RTag → RTag) : State :=
  match Tab.get? s.guest.tags r with
  | some t => s.updGuest (fun g => { g with tags := Tab.set g.tags r (f t) })
  | none => s

/-- R426 GUEST_COMPLETION: the guest ends the packet of tag `r` with ST `q`, CODE `c` and RESULT `v`. (DEDUCED, unsafe: log 98.) -/
def execGuestCompletion (s : State) : Result :=
  .next (
    let a := s.arg
    if s.guest.st != .active then s
    else
      match tagOpen s a.r with
      | none => breach s 5
      | some t =>
        onMessage s t.cid (fun st =>
          if (a.q = 0 ∧ a.c = 0) ∨ (a.q = 1 ∧ 1 ≤ a.c ∧ a.c ≤ 0x15) then
            updTag { st with nextCmd := st.nextCmd + 1 } a.r (fun t => { t with done := some (a.q, a.c, word (field a.v 0 48)), ord := st.nextCmd })
          else breach st 6))

/-- R426, R345, R361: a completion can enter its route: every write under its tag has performed, no earlier completion of the route waits, its context is live,
there is room, and no marker is due there first. -/
def completionGoes (s : State) (r : Nat) (t : RTag) : Bool :=
  t.done.isSome && s.guest.pend.all (fun p => p.1 == .guestTreq || p.2.r != r)
    && (staleTok s t.cl t.plid t.tag || t.ret == 15
      || (s.guest.tags.all (fun u => !(u.2.done.isSome && u.2.plid == t.plid && u.2.vp == t.vp && u.2.el == t.el && u.2.ret == t.ret
            && decide (u.2.ord < t.ord)))
        && (match holderOf s t.plid t.vp t.el with
          | some (e, x) => (s.ctxOf e x).st == .live && decide (fifoUsed (s.ctxOf e x) t.ret < 4)
              && !markDue s e x t.tag.frame.toNat t.win t.ret
          | none => false)))

/-- R426, R434, R450: the completion token of a packet. -/
def completionTok (s : State) (t : RTag) : Tok :=
  let d := t.done.getD (0, 0, 0)
  let base : Tok := { t.tag with kind := .data, level := 0, tile := none, slotRef := none, cust := none, cmd := none }
  if t.poison then { base with kind := .poison, payload := Config.freeWord s.free }
  else { base with payload := word (at' d.1 56 + at' d.2.1 48 + d.2.2.toNat) }

/-- R426 GUEST_COMPLETION_EMIT: the entry of tag `r` is freed and its completion enters its route. -/
def execGuestCompletionEmit (s : State) : Result :=
  .next (match Tab.get? s.guest.tags s.arg.r with
    | none => s
    | some t =>
      if !completionGoes s s.arg.r t then s
      else
        let f := t.tag.frame.toNat
        let s1 : State := s.updGuest (fun g => afterTag { g with tags := Tab.del g.tags s.arg.r })
        if staleTok s t.cl t.plid t.tag then staleDrop s1 t.cl t.plid t.tag
        else
          let s2 : State := if t.poison ∧ t.ret ≠ 15 then (countPoison s1 t.cl 1).draw else s1
          match (if t.ret = 15 then none else holderOf s t.plid t.vp t.el) with
          | some (e, x) => left (enterFifo s2 e x t.ret (completionTok s t)) t.cl t.plid f t.tag.gen
          | none => left s2 t.cl t.plid f t.tag.gen)

/-- R431, R433 GUEST_FAULT_RECORD: CODE `c`, FVAL `v`, PAYB `w` and AUX `q` under tag `r`. -/
def execGuestFaultRecord (s : State) : Result :=
  .next (
    let a := s.arg
    if s.guest.st != .active then s
    else
      match tagOpen s a.r with
      | none => breach s 5
      | some t =>
        onMessage s t.cid (fun st =>
          if a.c = 0 ∨ a.c = 0x0F ∨ 0x15 < a.c then breach st 5
          else
            let f := t.tag.frame.toNat
            let x := match holderOf st t.plid t.vp t.el with
              | some h => h.2
              | none => 0
            sendRecord st (if t.fqc = 0x3FF then (st.frameOf t.plid f).home else t.fqc / 128 * 96 + t.fqc % 128) { recordZero with
              hdra := t.tag.header x, fval := a.v, payb := a.w, aux := a.q % 2 ^ 32, elem := gesElem, opc := 0x56, code := a.c, kind := 6
              win := t.win, frm := frmField t.plid f t.tag.gen }))

/-! Translation (R428, R429) -/

/-- R211, R428: an access of a guest context as translation sees it. -/
def guestAccess (cid : Nat) (g : GuestCtx) (kind : AccKind) : Access :=
  { kind := kind, task := true, fromSeq := false, plid := some g.plid, walker := some (.guest cid) }

/-- R428: the grant that a translation gives, or its fault code. (DEDUCED, unsafe: log 99.) -/
def grantFor (s : State) (cid : Nat) (va : Nat) (kind : AccKind) : Except Nat Grant :=
  let g := guestCtxOf s cid
  if !g.v then .error cPERMISSION
  else if 2 ^ 58 ≤ va then .error cBOUNDS
  else
    match rootOf s g.plid with
    | none => .error cTRANSLATION
    | some root =>
      match translateLine s (guestAccess cid g kind) none reeveCl root va 1 with
      | .error c => .error c
      | .ok (ln, lf) =>
        match ln.loc with
        | .hbm a =>
          let sz := pageSize lf.level
          .ok { page := a / sz * sz, size := sz, va := va / sz * sz, r := bit lf.pte 20, w := bit lf.pte 21
                a := bit lf.pte 20 && bit lf.pte 21 && bit lf.pte 22, key := ln.key, irrev := ln.irrev, nolog := ln.nolog }
        | _ => .error cPERMISSION

/-- A request waits and is taken up again. -/
def pendReq (s : State) (i : Instr) (a : Arg) : State := s.updGuest (fun g => { g with pend := g.pend ++ [(i, a)] })

/-- A request that waits for room in its log, for a line, or for a walk. -/
def repend (s : State) (i : Instr) (a : Arg) : State := if s.guest.pend.contains (i, a) then s else pendReq s i a

/-- A request that is over waits no more. -/
def unpend (s : State) (i : Instr) (a : Arg) : State := s.updGuest (fun g => { g with pend := eraseFirst (· == (i, a)) g.pend })

/-- R428: the requests of a context for a translation that wait for room among its grants. -/
def treqsWaiting (s : State) (cid : Nat) : List (Instr × Arg) := s.guest.pend.filter (fun r => r.1 == .guestTreq && r.2.k == cid && r.2.f == 2)

/-- A grant that an INVAL of a page, or of everything, removes. -/
def grantHit (page : Option Nat) (g : Grant) : Bool :=
  match page with
  | none => true
  | some va => decide (g.va ≤ va ∧ va < g.va + g.size)

/-- R428: a request for a translation waits for room among its context's grants: the oldest grant that no INVAL removes yet is invalidated for it, unless the INVALs under way make
room enough. -/
def treqWaits (s : State) (a : Arg) : State :=
  let g := guestCtxOf s a.k
  let live := g.grants.filter (fun x => !g.invs.any (fun i => grantHit i.2 x))
  let w : Arg := { a with f := 2 }
  match (if live.length + (treqsWaiting s a.k).length < 64 then none else live.head?) with
  | some old => pendReq (toGuest (updGuestCtx s a.k (fun k => { k with invs := k.invs ++ [(none, some old.va)] })) (.inval a.k (some old.va))) .guestTreq w
  | none => pendReq s .guestTreq w

/-- R428: a request for a translation is answered, once its walk has been made and its context holds fewer than 64 grants. -/
def treqNow (s : State) (a : Arg) : State :=
  let cid := a.k
  let g := guestCtxOf s cid
  let acc := guestAccess cid g a.acc
  match (if g.v then rootOf s g.plid else none).bind (fun root => (walkNeeded s acc none reeveCl root [(a.v.toNat, 1)]).map (fun va => (root, va))) with
  | some (root, va) => repend (askWalk s acc reeveCl root va) .guestTreq (if a.f = 0 then { a with f := 1 } else a)
  | none =>
    match grantFor s cid a.v.toNat a.acc with
    | .error c =>
      toGuest (walksPast (unpend (match rootOf s g.plid with
        | some root => countErr s acc none reeveCl root a.v.toNat c
        | none => s) .guestTreq a) (.guest cid)) (.trspFault cid c)
    | .ok gr =>
      if decide (g.grants.length < 64) && ((treqsWaiting s cid).head?.getD (.guestTreq, a) == (.guestTreq, a)) then
        toGuest (updGuestCtx (walksPast (unpend s .guestTreq a) (.guest cid)) cid (fun k => { k with grants := k.grants ++ [gr] }))
          (.trsp cid (ownPeer s * 2 ^ 46 + gr.page) gr.size gr.r gr.w gr.a)
      else if a.f = 2 then s
      else treqWaits (unpend s .guestTreq a) a

/-- R428 GUEST_TREQ: context `k` asks for a translation of `v`; or a request that waits is taken up again. Where it holds 64 grants, the oldest is invalidated first. -/
def execGuestTreq (s : State) : Result :=
  .next (
    if s.arg.f ≠ 0 then (if s.guest.pend.contains (.guestTreq, s.arg) then treqNow s s.arg else s)
    else onMessage s s.arg.k (fun t => treqNow t t.arg))

/-- R429 INVDONE: context `k` has answered its oldest INVAL: the grants go, and what waited for that goes on. -/
def execInvdone (s : State) : Result :=
  .next (
    let cid := s.arg.k
    if s.guest.st != .active then s
    else
      match (guestCtxOf s cid).invs with
      | [] => breach s 6
      | (k?, page) :: rest =>
        let s1 : State := updGuestCtx s cid (fun g => { g with invs := rest, grants := g.grants.filter (fun x => !grantHit page x) })
        match k? with
        | some k => { s1 with invals := s1.invals.map (fun v => if v.k = k then { v with guests := v.guests.filter (· != cid) } else v) }
        | none => s1)

/-! The coherent port (R427, R428) -/

/-- R430: the region of a SAVE or RESTORE as a grant. (DEDUCED, unsafe: log 101.) -/
def regionGrant (s : State) (g : GuestCtx) : List Grant :=
  let base : Grant := { page := field g.region 12 34 * 4096, size := regionSize g.region, va := 0, r := true, w := g.cst == .saving, a := false,
                        key := s.dev.hdmkey, irrev := false, nolog := true }
  if g.cst = .saving ∨ g.cst = .restoring then [base] else []

/-- A grant permits an access of a kind. -/
def grantAllows (g : Grant) (kind : AccKind) : Bool :=
  match kind with
  | .read => g.r
  | .write => g.w
  | .atomic => g.a

/-- R428, R433: the grant under which a request of context `cid` is admitted, or the cause of the breach. -/
def granted (s : State) (cid addr n : Nat) (kind : AccKind) : Except Nat Grant :=
  let g := guestCtxOf s cid
  let a := addr % 2 ^ 46
  let covers (r : Grant) : Bool := decide (addr / 2 ^ 46 = ownPeer s ∧ r.page ≤ a ∧ a + n ≤ r.page + r.size)
  if g.cst == .saving && kind != .read && !(regionGrant s g).any covers then .error 4
  else
    match (regionGrant s g ++ g.grants).find? (fun r => grantAllows r kind && covers r) with
    | some gr => .ok gr
    | none => .error 1

/-- A request of the guest that is admitted. -/
def onRequest (s : State) (n : Nat) (kind : AccKind) (k : State → Grant → State) : State :=
  onMessage s s.arg.k (fun t =>
    match granted t t.arg.k t.arg.n n kind with
    | .error c => breach t c
    | .ok g => k t g)

/-- R432, R359: whose writes a packet's are: those of the firing that sent it. -/
def tagWriter (t : RTag) : Writer :=
  let m := t.tag.cmd.getD noSource
  { p := t.plid, f := t.tag.frame.toNat, win := t.win, iter := m.iter, elem := gesElem, cs := 0, spec := m.spec }

/-- A write under a grant: what is known of it once it is admitted, kept for the time it waits. -/
def admitted (a : Arg) (g : Grant) : Arg :=
  { a with f := 1, c := g.key, v := word (g.va + (a.n % 2 ^ 46 - g.page)), ok := g.nolog, e := g.irrev.toNat }

/-- R427, R358: an admitted RDSHARED performs at the home, where no write holds the line. -/
def rdsharedNow (s : State) (a : Arg) : State :=
  let line := a.n % 2 ^ 46 / 128
  if lineHeld s (.hbm (line * 128)) then repend s .rdshared a
  else
    match readHbm s a.c (line * 128) 128 with
    | some bs =>
      toGuest (unpend (s.updGuest (fun q => if q.copies.contains line then q else { q with copies := line :: q.copies })) .rdshared a) (.rdata a.k a.n bs false)
    | none => toGuest (unpend (countBad s (.hbm (line * 128))) .rdshared a) (.rdata a.k a.n [] true)

/-- R427 RDSHARED: a clean copy of the line of address `n` for context `k`. (DEDUCED, unsafe: log 103.) -/
def execRdshared (s : State) : Result :=
  .next (
    if s.arg.f = 1 then (if s.guest.pend.contains (.rdshared, s.arg) then rdsharedNow s s.arg else s)
    else onRequest s 1 .read (fun t g => rdsharedNow t (admitted t.arg g)))

/-- R358: another write than that of this request holds the line of its first byte. -/
def guestHeld (s : State) (a : Arg) (lo : Nat) : Bool :=
  lineHeldBut s (fun h => h.kind == 4 && h.num == a.r && h.va == a.v.toNat + lo - a.n % 2 ^ 46) (.hbm lo)

/-- R432, R358: a guest write of the bytes from `lo` to `hi` of a line is logged; false where it is held. (DEDUCED, unsafe: log 102.) -/
def guestLog (s : State) (a : Arg) (lo n : Nat) (atomic : Bool) : State × Bool :=
  match Tab.get? s.guest.tags a.r with
  | none => (s, true)
  | some t =>
    let va := a.v.toNat + lo - a.n % 2 ^ 46
    logLine s (tagWriter t) { kind := 4, loc := 0, num := a.r, va := va }
      { va := va, n := n, loc := .hbm lo, key := a.c, irrev := a.e == 1, nolog := a.ok, lvl := 0 } atomic false

/-- R232: a write of the guest to a line of which it holds a copy itself waits until that copy is gone too. -/
def afterOwnCopy (s : State) (i : Instr) (a : Arg) (k : State) : State :=
  let line := a.n % 2 ^ 46 / 128
  if s.guest.copies.contains line then repend (recallLine s line) i a else k

/-- R427, R450: an admitted WRTHRU performs at the home. (DEDUCED, unsafe: log 106.) -/
def wrthruNow (s : State) (a : Arg) : State :=
  let base := a.n % 2 ^ 46 / 128 * 128
  let bs := List.zip (a.bytes ++ List.replicate 128 0) ((a.mask ++ List.replicate 128 false).take 128)
  let runs := sendLine.runsOf bs 0
  match runs.head?, runs.getLast? with
  | some first, some last =>
    let lo := base + first.1
    let n := last.1 + last.2.length - first.1
    if guestHeld s a lo then repend s .wrthru a
    else if !runs.all (fun r => (writeHbm s a.c (base + r.1) r.2).isSome) then
      unpend (updTag s a.r (fun t => { t with poison := true })) .wrthru a
    else
      match guestLog s a lo n false with
      | (s1, false) => repend s1 .wrthru a
      | (s1, true) => unpend (runs.foldl (fun (st : State) (r : Nat × List Byte) => (writeHbm st a.c (base + r.1) r.2).getD st) s1) .wrthru a
  | _, _ => s

/-- R427 WRTHRU: context `k` writes the bytes of a line at address `n` that its mask names, under tag `r`. -/
def execWrthru (s : State) : Result :=
  .next (
    if s.arg.f = 1 then (if s.guest.pend.contains (.wrthru, s.arg) then afterOwnCopy s .wrthru s.arg (wrthruNow s s.arg) else s)
    else onRequest s 1 .write (fun t g => afterOwnCopy t .wrthru (admitted t.arg g) (wrthruNow t (admitted t.arg g))))

/-- R247, R246: the value that a guest's atomic writes over `old`. -/
def guestAtomicNew (op : GuestAtomicOp) (old : Nat) : Option Nat :=
  match op with
  | .aop o v => some (atomicNew o 64 old v.toNat)
  | .cas c v => if old = c.toNat then some v.toNat else none

/-- R427, R246, R450: an admitted ATOMIC performs at the home and is answered with the old value. -/
def guestAtomicNow (s : State) (a : Arg) (op : GuestAtomicOp) : State :=
  let lo := a.n % 2 ^ 46
  if guestHeld s a lo then repend s .guestAtomic a
  else
  match readHbm s a.c lo 8 with
  | none =>
    unpend (toGuest (updTag (countBad s (.hbm lo)) a.r (fun t => { t with poison := true })) (.adata a.k a.n 0 true)) .guestAtomic a
  | some bs =>
    match guestLog s a lo 8 true with
    | (s1, false) => repend s1 .guestAtomic a
    | (s1, true) =>
      let old := leNat bs
      let s2 : State := match guestAtomicNew op old with
        | some v => (writeHbm s1 a.c lo (leBytes 8 v)).getD s1
        | none => s1
      unpend (toGuest s2 (.adata a.k a.n (word old) false)) .guestAtomic a

/-- R427 ATOMIC: an atomic of 8 bytes at address `n` for context `k` under tag `r`; a misaligned one is malformed. -/
def execGuestAtomic (s : State) : Result :=
  .next (match s.arg.gop with
    | none => breach s 6
    | some op =>
      if s.arg.f = 1 then (if s.guest.pend.contains (.guestAtomic, s.arg) then afterOwnCopy s .guestAtomic s.arg (guestAtomicNow s s.arg op) else s)
      else if s.arg.n % 8 ≠ 0 then breach s 6
      else onRequest s 8 .atomic (fun t g => afterOwnCopy t .guestAtomic (admitted t.arg g) (guestAtomicNow t (admitted t.arg g) op)))

/-- R427 CLEAN: the guest drops its copy of a line. -/
def execClean (s : State) : Result := .next (onMessage s s.arg.k (fun t => copyGone t (t.arg.n % 2 ^ 46 / 128)))

/-- R427 SNPINV_ANSWER: the guest has given up the line that the home recalled. -/
def execSnpinvAnswer (s : State) : Result :=
  .next (if s.guest.st = .active then copyGone s (s.arg.n % 2 ^ 46 / 128) else s)

/-! Duties (R433) -/

/-- R433: the duty of a cause is owed. -/
def dutyOwed (s : State) (cause cid : Nat) : Bool :=
  let g := guestCtxOf s cid
  match cause with
  | 2 => !g.invs.isEmpty
  | 3 => g.cst == .pausing
  | 4 => g.cst == .saving || g.cst == .restoring
  | 6 => !s.guest.recalls.isEmpty
  | _ => false

/-- R433 GUEST_DUTY_TIMEOUT: the bound of a duty that context `k` owes (or a recall) has passed. -/
def execGuestDutyTimeout (s : State) : Result := .next (if dutyOwed s s.arg.n s.arg.k then breach s s.arg.n else s)

/-- R433 GUEST_MALFORMED_MESSAGE. -/
def execGuestMalformedMessage (s : State) : Result := .next (breach s 6)

end Sys2Proof.Machine
end

