-- ==== Sys2Proof/Machine/Inval.lean ====
section
/-! DEFINITION. Invalidation of translations (R227, R228, R254, R429, R441): its start, what it waits for, and its completion. -/

namespace Sys2Proof.Machine

/-- R227: a leaf in the scope of an invalidation: 0 the page of a VA, 1 an ASID, 2 all. -/
def inScope (scope va asid : Nat) (l : Leaf) : Bool :=
  match scope with
  | 0 => l.covers asid va
  | 1 => l.asid == asid
  | _ => true

/-- The ASID of a placement's root lies in the scope's ASID. -/
def asidInScope (s : State) (scope asid p : Nat) : Bool :=
  match rootOf s p with
  | some r => scope == 2 || r.2 == asid
  | none => false

/-- R227 item 3: an access translated and not yet performed, in scope. -/
def accessInScope (s : State) (scope va asid : Nat) (m : MemEntry) : Bool :=
  (m.st == .translated || m.st == .sent || m.st == .away) && !(m.dead && m.st == .translated) && asidInScope s scope asid m.plid
    && (scope != 0 || m.lines.any (fun l => va / pageSize l.lvl == l.va / pageSize l.lvl))

/-- Requests to other packages that sequencers and copy engines wait for, translated under an ASID in scope. -/
def remoteInScope (s : State) (scope asid : Nat) (r : Remote) : Bool :=
  match r.owner with
  | .seq c => scope == 2 || field (s.seqOf c).asid 0 16 == asid
  | .ce c k => scope == 2 || ((s.clusterOf c).ce.find? (fun y => y.id == k)).any (fun y => match y.root with
      | some q => q.2 == asid
      | none => false)
  | .queue q id => scope == 2 || (s.queueOf q).going.any (fun g => g.pkt.id == id && g.pkt.root.2 == asid)
  | .entry _ _ => false
  | .guest _ => false

/-- R227 item 2: a walk is discarded, whatever it has found, and starts again. -/
def Walk.restart (w : Walk) : Walk := { w with lvl := 3, tbl := w.top, res := none }

/-- R227, R429: an invalidation begins: every entry in scope goes, the walks in scope start again, and the guest contexts concerned are told. -/
def startInval (s : State) (scope va asid : Nat) (issuer : Option Nat) : State :=
  let k := s.nextInval
  let keep (l : Leaf) : Bool := !inScope scope va asid l
  let keepO (o : Option Leaf) : Option Leaf := o.filter keep
  let guests := if s.guest.st = .active then
      (s.guest.ctxs.filter (fun c => c.2.v && asidInScope s scope asid c.2.plid)).map (·.1) else []
  let page : Option Nat := if scope = 0 then some va else none
  let v : Inval := {
    k := k, scope := scope, va := va, asid := asid, issuer := issuer, guests := guests, told := guests
    entries := s.elems.flatMap (fun e => (e.2.port.filter (accessInScope s scope va asid)).map (fun m => (e.1, m.id)))
    rids := (s.remotes.filter (remoteInScope s scope asid)).map (·.rid) }
  { s with
    nextInval := k + 1
    invals := s.invals ++ [v]
    elems := s.elems.map (fun e => (e.1, { e.2 with streams := Vector.ofFn (fun i : Fin 8 => keepO (vget e.2.streams i.val none)) }))
    seqs := s.seqs.map (fun q => (q.1, { q.2 with tlb := keepO q.2.tlb }))
    clusters := s.clusters.map (fun c => (c.1, { c.2 with tlb := c.2.tlb.filter keep }))
    dieTlb := s.dieTlb.map (fun d => (d.1, d.2.filter keep))
    walks := s.walks.map (fun w => if scope = 2 ∨ w.asid = asid then w.restart else w)
    guest := { s.guest with
      ctxs := s.guest.ctxs.map (fun c => if guests.contains c.1 then
          (c.1, { c.2 with invs := c.2.invs ++ [(some k, page)] }) else c)
      out := s.guest.out ++ guests.map (fun c => .inval c page) } }

/-- R227: what an invalidation waits for has happened. -/
def invalDone (s : State) (v : Inval) : Bool :=
  v.entries.all (fun e => match (s.elemOf e.1).port.find? (fun m => m.id == e.2) with
    | some m => m.st == .performed || (m.dead && !(m.st == .sent || m.st == .away))
    | none => true)
    && v.rids.all (fun r => !s.remotes.any (fun q => q.rid == r))
    && v.guests.isEmpty && s.guest.pend.all (fun r => r.1 == .guestTreq || !v.told.contains r.2.k)

/-- R227, R441, R254 INVALIDATION_COMPLETE: invalidation `k` completes, and its issuer goes on. -/
def execInvalidationComplete (s : State) : Result :=
  .next (match s.invals.find? (fun v => v.k == s.arg.k) with
    | none => s
    | some v =>
      if !invalDone s v then s
      else
        let s1 := { s with invals := s.invals.filter (fun w => w.k != v.k) }
        match v.issuer with
        | none => s1.updDev (fun d => { d with hinvBusy := false })
        | some c =>
          let q := s1.seqOf c
          if q.wait = some (.inval v.k) then s1.setSeq c (q.finish (q.pc + 4) 12) else s1)

/-- R254: TLBI of a scope waits for its invalidation. (DEDUCED, unsafe: log 44.) -/
def tlbi (i : Instr) (scope va asid : Nat) (s : State) : State :=
  kernelOnly i s (
    let k := s.nextInval
    let s1 := startInval s scope va asid (some s.cur)
    s1.setMe { s1.me with wait := some (.inval k) })

/-- R254. -/
def execTlbiPage (a b : BitVec 5) (s : State) : Result :=
  .next (tlbi (.tlbiPage a b) 0 (field (s.reg a) 0 58) (field (s.reg b) 0 16) s)
/-- R254. -/
def execTlbiAsid (b : BitVec 5) (s : State) : Result := .next (tlbi (.tlbiAsid b) 1 0 (field (s.reg b) 0 16) s)
/-- R254. -/
def execTlbiAll (s : State) : Result := .next (tlbi .tlbiAll 2 0 0 s)

/-- R441: a host invalidation of the scope that HINVC names, while none is under way. -/
def hostInval (s : State) (scope : Nat) : State :=
  if s.dev.hinvBusy then s
  else
    let s1 := s.updDev (fun d => { d with hinvc := s.arg.v, hinvBusy := true })
    startInval s1 scope (field s.dev.hinva 0 58) (field s.arg.v 0 16) none

/-- R441. -/
def execHostInvalidatePage (s : State) : Result := .next (hostInval s 0)
/-- R441. -/
def execHostInvalidateAsid (s : State) : Result := .next (hostInval s 1)
/-- R441. -/
def execHostInvalidateAll (s : State) : Result := .next (hostInval s 2)

end Sys2Proof.Machine
end

