-- ==== Sys2Proof/Machine/SeqControl.lean ====
section
/-! DEFINITION. The sequencer's branches, jumps, control-register accesses, system group and traps (R44 to R51), and the events of a
sequencer: release, stop, mailbox writes, interrupts, fetch faults (R13, R22, R25 to R28, R442). -/

namespace Sys2Proof.Machine

/-- R44: pc + 4 times the offset when taken (class B, 2 cycles), else the next word (class S, 1 cycle). -/
def branch (taken : Bool) (o : BitVec 16) (s : State) : State :=
  if taken then s.setMe (s.me.finish (s.me.pc + wordOffset o) 2) else s.advance 1

/-- R44. -/
def execBeq (a b : BitVec 5) (o : BitVec 16) (s : State) : Result := .next (branch (s.reg a == s.reg b) o s)
/-- R44. -/
def execBne (a b : BitVec 5) (o : BitVec 16) (s : State) : Result := .next (branch (s.reg a != s.reg b) o s)
/-- R44. -/
def execBlt (a b : BitVec 5) (o : BitVec 16) (s : State) : Result := .next (branch ((s.reg a).slt (s.reg b)) o s)
/-- R44. -/
def execBge (a b : BitVec 5) (o : BitVec 16) (s : State) : Result := .next (branch (!(s.reg a).slt (s.reg b)) o s)
/-- R44. -/
def execBltu (a b : BitVec 5) (o : BitVec 16) (s : State) : Result := .next (branch ((s.reg a).ult (s.reg b)) o s)
/-- R44. -/
def execBgeu (a b : BitVec 5) (o : BitVec 16) (s : State) : Result := .next (branch (!(s.reg a).ult (s.reg b)) o s)

/-- R45. -/
def execJ (o : BitVec 26) (s : State) : Result := .next (s.setMe (s.me.finish (s.me.pc + wordOffset o) 2))

/-- R45: the link is g31. -/
def execJal (o : BitVec 26) (s : State) : Result :=
  .next (s.setMe ((s.me.setReg 31 (s.me.pc + 4)).finish (s.me.pc + wordOffset o) 2))

/-- R45: ALIGNMENT for a target that is no multiple of 4, before the link is written. -/
def execJalr (d a : BitVec 5) (imm : BitVec 16) (s : State) : Result :=
  let t := s.ea a imm
  .next (if t.toNat % 4 ≠ 0 then s.trap cALIGNMENT 0 t
    else s.setMe ((s.me.setReg d (s.me.pc + 4)).finish t 2))

/-! Control registers (R46) -/

/-- R18: the control registers that Task level may read: CYCLE and CLID. -/
def taskReadable (n : Nat) : Bool := n == 0x010 || n == 0x020

/-- R46, R27: ILLEGAL for an unassigned number, then PERMISSION at Task level, else the access, given the old value. -/
def crAccess (i : Instr) (n : BitVec 12) (read : Bool) (s : State) (body : Word → State) : State :=
  match crRead s s.cur n.toNat with
  | none => s.trap cILLEGAL 0 (instrWord i)
  | some old =>
    if s.me.kernel || (read && taskReadable n.toNat) then body old else s.trap cPERMISSION 0 (instrWord i)

/-- R46: g[d] ← C. -/
def execCrrd (d : BitVec 5) (n : BitVec 12) (s : State) : Result :=
  .next (crAccess (.crrd d n) n true s (fun old => s.result d old 1))

/-- R46: C ← g[a], field by field. (DEDUCED, safe: log 13.) -/
def execCrwr (a : BitVec 5) (n : BitVec 12) (s : State) : Result :=
  .next (crAccess (.crwr a n) n false s (fun _ => (crWrite s s.cur n.toNat (s.reg a)).advance 1))

/-- R46: C ← old OR g[a]; g[d] ← old. -/
def execCrset (d a : BitVec 5) (n : BitVec 12) (s : State) : Result :=
  .next (crAccess (.crset d a n) n false s (fun old => (crWrite s s.cur n.toNat (old ||| s.reg a)).result d old 1))

/-- R46: C ← old AND NOT g[a]; g[d] ← old. -/
def execCrclr (d a : BitVec 5) (n : BitVec 12) (s : State) : Result :=
  .next (crAccess (.crclr d a n) n false s (fun old => (crWrite s s.cur n.toNat (old &&& ~~~(s.reg a))).result d old 1))

/-! System group (R49, R50) -/

/-- R49. -/
def execNop (s : State) : Result := .next (s.advance 1)

/-- R49, R252: FENCE waits while a store of the sequencer to HOST or GUEST has still to perform; every other access of it has performed. (DEDUCED, safe: log 12.) -/
def execFence (s : State) : Result :=
  .next (if s.posted.any (fun w => w.owner == .seq s.cur) then s.setMe { s.me with wait := some .again } else s.advance 1)

/-- R28, R49: Kernel only. -/
def execTret (s : State) : Result := .next (kernelOnly .tret s (s.setMe (trapReturn s.me)))

/-- R50: completes as NOP when the wake condition holds at issue, else the sequencer enters WAITING at the WFE, in which the cycle of its issue passes. -/
def execWfe (s : State) : Result :=
  .next (if s.me.wakes then s.advance 1 else s.setMe { s.me with run := .waiting, cycle := s.me.cycle + 1 })

/-- R49: EVB bit g[a][7:0] ← 1. -/
def execSev (a : BitVec 5) (s : State) : Result :=
  .next ((eventOp s s.cur 0 ((s.reg a).toNat % 256)).advance 1)

/-- R49: Kernel only; PCV is the address of the HALT (R442). -/
def execHalt (s : State) : Result :=
  .next (kernelOnly .halt s (s.setMe { s.me with run := .halted, pcv := s.me.pc, stopReq := false }))

/-- R51: TRAP_OP, SUB 0. -/
def execSyscall (imm : BitVec 16) (s : State) : Result := .next (s.trap cTRAPOP 0 (zext16 imm))

/-- R51: TRAP_OP, SUB 1. -/
def execBrk (imm : BitVec 16) (s : State) : Result := .next (s.trap cTRAPOP 1 (zext16 imm))

/-! Events of the sequencer of cluster `s.cur` at an instruction boundary -/

/-- R25, R26, R28: the pending enabled cause of lowest CODE is taken, with TPC the next instruction's address. -/
def execInterruptEntry (s : State) : Result :=
  .next (match s.me.enabledCause with
    | some (code, v) =>
      if s.me.run == .running && s.me.interrupts then s.setMe (trapEntry code 0 v true s.me.pc s.me) else s
    | none => s)

/-- R30, R27 row 4: the word at pc is one that no instruction has. -/
def execIllegalInstruction (s : State) : Result :=
  .next (if (decodeSeq (fetchWord s.me)).isNone then s.trap cILLEGAL 0 ((fetchWord s.me).setWidth 64) else s)

/-- R27 rows 1 to 3: what is wrong with a fetch at pc. -/
def fetchProblem (q : Seq) : Option Nat :=
  if windowSize ≤ q.pc.toNat then some cBOUNDS
  else if !q.kernel && !q.taskPage q.pc.toNat then some cPERMISSION
  else if q.memErr.contains (q.pc.toNat / 8) then some cINTEGRITY
  else none

/-- R27: a fetch that fails traps at the fetch address. -/
def execFetchFault (s : State) : Result :=
  .next (match fetchProblem s.me with
    | some c => s.trap c 0 s.me.pc
    | none => s)

/-- R13: the sequencer issues nothing in this cycle: it waits, has halted, or an instruction that it has issued is not complete. -/
def Seq.idles (q : Seq) : Bool := q.run == .waiting || q.run == .halted || (q.run == .running && q.wait.isSome)

/-- R22: a sequencer cycle passes. -/
def Seq.tick (q : Seq) : Seq := { q with cycle := q.cycle + 1 }

/-- R26, R13: in a cycle in which nothing issues, CYCLE, which counts in every state but HELD, reaches TCMP, and the timer cause is pending. -/
def execTimerCompare (s : State) : Result :=
  let q := s.seqOf s.arg.c
  onUnit (okC s.arg.c) (if q.idles && q.cycle + 1 == q.tcmp then s.setSeq s.arg.c q.tick else s)

/-- R50: a WFE that waits completes in the cycle in which its condition holds; the next instruction issues two cycles later (class W). -/
def execWfeWake (s : State) : Result :=
  let q := s.seqOf s.arg.c
  onUnit (okC s.arg.c) (if q.run == .waiting && q.wakes then s.setSeq s.arg.c ({ q with run := .running }.finish (q.pc + 4) 2) else s)

/-- R13, R442: a HELD or HALTED sequencer runs at 0x0000 with STATUS at its reset value, once GO has been given. -/
def execSequencerRelease (s : State) : Result :=
  let q := s.seqOf s.arg.c
  onUnit (okC s.arg.c) (if s.dev.goDone && s.dev.boot == 0 && (q.run == .held || q.run == .halted) then
      s.setSeq s.arg.c { q with run := .running, pc := 0, status := seqReset.status, wait := none, stopReq := false, loaded := 0 }
    else s)

/-- R13, R442: a RUNNING or WAITING sequencer is HALTED at its next instruction boundary; an instruction of class P completes first. -/
def execSequencerStop (s : State) : Result :=
  let q := s.seqOf s.arg.c
  onUnit (okC s.arg.c) (if q.run == .running && q.wait.isSome then s.setSeq s.arg.c { q with stopReq := true }
    else if q.run == .running || q.run == .waiting then s.setSeq s.arg.c { q with run := .halted, pcv := q.pc }
    else s)

/-- R22, R23: a host write to a mailbox lands in every run state. -/
def execMailboxWrite (s : State) : Result :=
  let q := s.seqOf s.arg.c
  onUnit (okC s.arg.c && decide (s.arg.k < 4)) (s.setSeq s.arg.c { q with mbox := vset q.mbox s.arg.k s.arg.v })

/-- R215: a write of a cluster's CMNSCR. -/
def execCmnscrWrite (s : State) : Result := onUnit (okC s.arg.c) (writeCmnscr s s.arg.c s.arg.v)

end Sys2Proof.Machine
end

