-- ==== Sys2Proof/Machine/SeqInt.lean ====
section
/-! DEFINITION. The sequencer's integer, multiply, divide, compare, count, immediate and bit-field instructions (R34 to R41). Each writes one
register and goes on to the next word; class S costs 1 cycle, class M 3 and class D 66 (R35). -/

namespace Sys2Proof.Machine


/-- R36. -/
def execAdd (d a b : BitVec 5) (s : State) : Result := .next (s.result d (aluAdd (s.reg a) (s.reg b)) 1)

/-- R36. -/
def execSub (d a b : BitVec 5) (s : State) : Result := .next (s.result d (aluSub (s.reg a) (s.reg b)) 1)

/-- R36. -/
def execAnd (d a b : BitVec 5) (s : State) : Result := .next (s.result d (aluAnd (s.reg a) (s.reg b)) 1)

/-- R36. -/
def execOr (d a b : BitVec 5) (s : State) : Result := .next (s.result d (aluOr (s.reg a) (s.reg b)) 1)

/-- R36. -/
def execXor (d a b : BitVec 5) (s : State) : Result := .next (s.result d (aluXor (s.reg a) (s.reg b)) 1)

/-- R36. -/
def execAndn (d a b : BitVec 5) (s : State) : Result := .next (s.result d (aluAndn (s.reg a) (s.reg b)) 1)

/-- R36. -/
def execShl (d a b : BitVec 5) (s : State) : Result := .next (s.result d (aluShl (s.reg a) (s.reg b)) 1)

/-- R36. -/
def execShr (d a b : BitVec 5) (s : State) : Result := .next (s.result d (aluShr (s.reg a) (s.reg b)) 1)

/-- R36. -/
def execSar (d a b : BitVec 5) (s : State) : Result := .next (s.result d (aluSar (s.reg a) (s.reg b)) 1)

/-- R36. -/
def execRot (d a b : BitVec 5) (s : State) : Result := .next (s.result d (aluRot (s.reg a) (s.reg b)) 1)

/-- R37. -/
def execMul (d a b : BitVec 5) (s : State) : Result := .next (s.result d (aluMul (s.reg a) (s.reg b)) 3)

/-- R37. -/
def execMulh (d a b : BitVec 5) (s : State) : Result := .next (s.result d (aluMulh (s.reg a) (s.reg b)) 3)

/-- R37. -/
def execMulhu (d a b : BitVec 5) (s : State) : Result := .next (s.result d (aluMulhu (s.reg a) (s.reg b)) 3)

/-- R37. -/
def execDiv (d a b : BitVec 5) (s : State) : Result := .next (s.result d (aluDiv (s.reg a) (s.reg b)) 66)

/-- R37. -/
def execDivu (d a b : BitVec 5) (s : State) : Result := .next (s.result d (aluDivu (s.reg a) (s.reg b)) 66)

/-- R37. -/
def execRem (d a b : BitVec 5) (s : State) : Result := .next (s.result d (aluRem (s.reg a) (s.reg b)) 66)

/-- R37. -/
def execRemu (d a b : BitVec 5) (s : State) : Result := .next (s.result d (aluRemu (s.reg a) (s.reg b)) 66)

/-- R38. -/
def execSlt (d a b : BitVec 5) (s : State) : Result := .next (s.result d (aluSlt (s.reg a) (s.reg b)) 1)

/-- R38. -/
def execSltu (d a b : BitVec 5) (s : State) : Result := .next (s.result d (aluSltu (s.reg a) (s.reg b)) 1)

/-- R38. -/
def execSeq (d a b : BitVec 5) (s : State) : Result := .next (s.result d (aluSeq (s.reg a) (s.reg b)) 1)

/-- R38. -/
def execMin (d a b : BitVec 5) (s : State) : Result := .next (s.result d (aluMin (s.reg a) (s.reg b)) 1)

/-- R38. -/
def execMax (d a b : BitVec 5) (s : State) : Result := .next (s.result d (aluMax (s.reg a) (s.reg b)) 1)

/-- R38. -/
def execMinu (d a b : BitVec 5) (s : State) : Result := .next (s.result d (aluMinu (s.reg a) (s.reg b)) 1)

/-- R38. -/
def execMaxu (d a b : BitVec 5) (s : State) : Result := .next (s.result d (aluMaxu (s.reg a) (s.reg b)) 1)

/-- R39. -/
def execClz (d a : BitVec 5) (s : State) : Result := .next (s.result d (aluClz (s.reg a)) 1)

/-- R39. -/
def execCtz (d a : BitVec 5) (s : State) : Result := .next (s.result d (aluCtz (s.reg a)) 1)

/-- R39. -/
def execPopc (d a : BitVec 5) (s : State) : Result := .next (s.result d (aluPopc (s.reg a)) 1)

/-- R40. -/
def execAddi (d a : BitVec 5) (imm : BitVec 16) (s : State) : Result := .next (s.result d (aluAdd (s.reg a) (sext16 imm)) 1)

/-- R40. -/
def execAndi (d a : BitVec 5) (imm : BitVec 16) (s : State) : Result := .next (s.result d (aluAnd (s.reg a) (zext16 imm)) 1)

/-- R40. -/
def execOri (d a : BitVec 5) (imm : BitVec 16) (s : State) : Result := .next (s.result d (aluOr (s.reg a) (zext16 imm)) 1)

/-- R40. -/
def execXori (d a : BitVec 5) (imm : BitVec 16) (s : State) : Result := .next (s.result d (aluXor (s.reg a) (zext16 imm)) 1)

/-- R40. -/
def execSlti (d a : BitVec 5) (imm : BitVec 16) (s : State) : Result := .next (s.result d (aluSlt (s.reg a) (sext16 imm)) 1)

/-- R40. -/
def execSltiu (d a : BitVec 5) (imm : BitVec 16) (s : State) : Result := .next (s.result d (aluSltu (s.reg a) (sext16 imm)) 1)

/-- R40: the amount is imm16[5:0]. -/
def execShli (d a : BitVec 5) (n : BitVec 6) (s : State) : Result := .next (s.result d (aluShl (s.reg a) (n.setWidth 64)) 1)

/-- R40: the amount is imm16[5:0]. -/
def execShri (d a : BitVec 5) (n : BitVec 6) (s : State) : Result := .next (s.result d (aluShr (s.reg a) (n.setWidth 64)) 1)

/-- R40: the amount is imm16[5:0]. -/
def execSari (d a : BitVec 5) (n : BitVec 6) (s : State) : Result := .next (s.result d (aluSar (s.reg a) (n.setWidth 64)) 1)

/-- R40: shifts left by 16 and inserts the immediate. -/
def execLdhi (d a : BitVec 5) (imm : BitVec 16) (s : State) : Result :=
  .next (s.result d (((s.reg a) <<< 16) ||| zext16 imm) 1)

/-- R41. -/
def execBfx (d a : BitVec 5) (o w : BitVec 8) (s : State) : Result :=
  .next (s.result d (bitExtract (s.reg a) o.toNat w.toNat) 1)

/-- R41. -/
def execBfxs (d a : BitVec 5) (o w : BitVec 8) (s : State) : Result :=
  .next (s.result d (bitExtractSigned (s.reg a) o.toNat w.toNat) 1)

/-- R41: g[d] is a source and a destination. -/
def execBfi (d a : BitVec 5) (o w : BitVec 8) (s : State) : Result :=
  .next (s.result d (bitInsert (s.reg d) (s.reg a) o.toNat w.toNat) 1)

end Sys2Proof.Machine
end

