-- ==== Sys2Proof/Machine/Dispatch.lean ====
section
/-! DEFINITION. Which meaning each instruction has: one arm per constructor of Instr, one direct call each. -/

namespace Sys2Proof.Machine

/-- The outcome of an instruction. -/
def exec (i : Instr) (s : State) : Host.Outcome State Fault Refusal :=
  match i with
  | .add d a b => Sys2Proof.Machine.execAdd d a b s
  | .sub d a b => Sys2Proof.Machine.execSub d a b s
  | .and d a b => Sys2Proof.Machine.execAnd d a b s
  | .or d a b => Sys2Proof.Machine.execOr d a b s
  | .xor d a b => Sys2Proof.Machine.execXor d a b s
  | .andn d a b => Sys2Proof.Machine.execAndn d a b s
  | .shl d a b => Sys2Proof.Machine.execShl d a b s
  | .shr d a b => Sys2Proof.Machine.execShr d a b s
  | .sar d a b => Sys2Proof.Machine.execSar d a b s
  | .rot d a b => Sys2Proof.Machine.execRot d a b s
  | .mul d a b => Sys2Proof.Machine.execMul d a b s
  | .mulh d a b => Sys2Proof.Machine.execMulh d a b s
  | .mulhu d a b => Sys2Proof.Machine.execMulhu d a b s
  | .div d a b => Sys2Proof.Machine.execDiv d a b s
  | .divu d a b => Sys2Proof.Machine.execDivu d a b s
  | .rem d a b => Sys2Proof.Machine.execRem d a b s
  | .remu d a b => Sys2Proof.Machine.execRemu d a b s
  | .slt d a b => Sys2Proof.Machine.execSlt d a b s
  | .sltu d a b => Sys2Proof.Machine.execSltu d a b s
  | .seq d a b => Sys2Proof.Machine.execSeq d a b s
  | .min d a b => Sys2Proof.Machine.execMin d a b s
  | .max d a b => Sys2Proof.Machine.execMax d a b s
  | .minu d a b => Sys2Proof.Machine.execMinu d a b s
  | .maxu d a b => Sys2Proof.Machine.execMaxu d a b s
  | .clz d a => Sys2Proof.Machine.execClz d a s
  | .ctz d a => Sys2Proof.Machine.execCtz d a s
  | .popc d a => Sys2Proof.Machine.execPopc d a s
  | .addi d a imm => Sys2Proof.Machine.execAddi d a imm s
  | .andi d a imm => Sys2Proof.Machine.execAndi d a imm s
  | .ori d a imm => Sys2Proof.Machine.execOri d a imm s
  | .xori d a imm => Sys2Proof.Machine.execXori d a imm s
  | .shli d a n => Sys2Proof.Machine.execShli d a n s
  | .shri d a n => Sys2Proof.Machine.execShri d a n s
  | .sari d a n => Sys2Proof.Machine.execSari d a n s
  | .slti d a imm => Sys2Proof.Machine.execSlti d a imm s
  | .sltiu d a imm => Sys2Proof.Machine.execSltiu d a imm s
  | .ldhi d a imm => Sys2Proof.Machine.execLdhi d a imm s
  | .bfx d a o w => Sys2Proof.Machine.execBfx d a o w s
  | .bfxs d a o w => Sys2Proof.Machine.execBfxs d a o w s
  | .bfi d a o w => Sys2Proof.Machine.execBfi d a o w s
  | .lb d a imm => Sys2Proof.Machine.execLb d a imm s
  | .lbu d a imm => Sys2Proof.Machine.execLbu d a imm s
  | .lh d a imm => Sys2Proof.Machine.execLh d a imm s
  | .lhu d a imm => Sys2Proof.Machine.execLhu d a imm s
  | .lw d a imm => Sys2Proof.Machine.execLw d a imm s
  | .lwu d a imm => Sys2Proof.Machine.execLwu d a imm s
  | .ld d a imm => Sys2Proof.Machine.execLd d a imm s
  | .sb r a imm => Sys2Proof.Machine.execSb r a imm s
  | .sh r a imm => Sys2Proof.Machine.execSh r a imm s
  | .sw r a imm => Sys2Proof.Machine.execSw r a imm s
  | .sd r a imm => Sys2Proof.Machine.execSd r a imm s
  | .beq a b o => Sys2Proof.Machine.execBeq a b o s
  | .bne a b o => Sys2Proof.Machine.execBne a b o s
  | .blt a b o => Sys2Proof.Machine.execBlt a b o s
  | .bge a b o => Sys2Proof.Machine.execBge a b o s
  | .bltu a b o => Sys2Proof.Machine.execBltu a b o s
  | .bgeu a b o => Sys2Proof.Machine.execBgeu a b o s
  | .j o => Sys2Proof.Machine.execJ o s
  | .jal o => Sys2Proof.Machine.execJal o s
  | .jalr d a imm => Sys2Proof.Machine.execJalr d a imm s
  | .crrd d n => Sys2Proof.Machine.execCrrd d n s
  | .crwr a n => Sys2Proof.Machine.execCrwr a n s
  | .crset d a n => Sys2Proof.Machine.execCrset d a n s
  | .crclr d a n => Sys2Proof.Machine.execCrclr d a n s
  | .amoswap d a b => Sys2Proof.Machine.execAmoswap d a b s
  | .amocas d a b c => Sys2Proof.Machine.execAmocas d a b c s
  | .amoadd d a b => Sys2Proof.Machine.execAmoadd d a b s
  | .amoand d a b => Sys2Proof.Machine.execAmoand d a b s
  | .amoor d a b => Sys2Proof.Machine.execAmoor d a b s
  | .amoxor d a b => Sys2Proof.Machine.execAmoxor d a b s
  | .amomin d a b => Sys2Proof.Machine.execAmomin d a b s
  | .amomax d a b => Sys2Proof.Machine.execAmomax d a b s
  | .nop => Sys2Proof.Machine.execNop s
  | .fence => Sys2Proof.Machine.execFence s
  | .tret => Sys2Proof.Machine.execTret s
  | .wfe => Sys2Proof.Machine.execWfe s
  | .sev a => Sys2Proof.Machine.execSev a s
  | .halt => Sys2Proof.Machine.execHalt s
  | .syscall imm => Sys2Proof.Machine.execSyscall imm s
  | .brk imm => Sys2Proof.Machine.execBrk imm s
  | .gload d a b => Sys2Proof.Machine.execGload d a b s
  | .gevict d a => Sys2Proof.Machine.execGevict d a s
  | .falloc d a b c => Sys2Proof.Machine.execFalloc d a b c s
  | .ffree d a => Sys2Proof.Machine.execFfree d a s
  | .fkill d a => Sys2Proof.Machine.execFkill d a s
  | .tinj d a b c => Sys2Proof.Machine.execTinj d a b c s
  | .census d a b => Sys2Proof.Machine.execCensus d a b s
  | .tlbiPage a b => Sys2Proof.Machine.execTlbiPage a b s
  | .tlbiAsid b => Sys2Proof.Machine.execTlbiAsid b s
  | .tlbiAll => Sys2Proof.Machine.execTlbiAll s
  | .cprio d a b => Sys2Proof.Machine.execCprio d a b s
  | .csave d a b c => Sys2Proof.Machine.execCsave d a b c s
  | .crstr d a b c => Sys2Proof.Machine.execCrstr d a b c s
  | .fres d a b c => Sys2Proof.Machine.execFres d a b c s
  | .fdisc d a => Sys2Proof.Machine.execFdisc d a s
  | .fretry d a => Sys2Proof.Machine.execFretry d a s
  | .wmark d a b => Sys2Proof.Machine.execWmark d a b s
  | .wretire d a b => Sys2Proof.Machine.execWretire d a b s
  | .rwin d a b => Sys2Proof.Machine.execRwin d a b s
  | .rstep d a b => Sys2Proof.Machine.execRstep d a b s
  | .fstep d a b => Sys2Proof.Machine.execFstep d a b s
  | .wcfg d a b c => Sys2Proof.Machine.execWcfg d a b c s
  | .snap d a => Sys2Proof.Machine.execSnap d a s
  | .steer a b x y t n => Sys2Proof.Machine.execSteer a b x y t n s
  | .merge a b x y t n => Sys2Proof.Machine.execMerge a b x y t n s
  | .lcarry a b x y t n => Sys2Proof.Machine.execLcarry a b x y t n s
  | .lexit a b x y t n => Sys2Proof.Machine.execLexit a b x y t n s
  | .count a b x n => Sys2Proof.Machine.execCount a b x n s
  | .count2 a b x n => Sys2Proof.Machine.execCount2 a b x n s
  | .bound a x y t n => Sys2Proof.Machine.execBound a x y t n s
  | .endq a x y t n => Sys2Proof.Machine.execEndq a x y t n s
  | .gate a b x y t n => Sys2Proof.Machine.execGate a b x y t n s
  | .join a b x y t n => Sys2Proof.Machine.execJoin a b x y t n s
  | .copy a x y t n => Sys2Proof.Machine.execCopy a x y t n s
  | .sink a t n => Sys2Proof.Machine.execSink a t n s
  | .const a x y t n => Sys2Proof.Machine.execConst a x y t n s
  | .spect a b x y t n => Sys2Proof.Machine.execSpect a b x y t n s
  | .commit a b x y n => Sys2Proof.Machine.execCommit a b x y n s
  | .kill a x y n => Sys2Proof.Machine.execKill a x y n s
  | .fnew a b x y n => Sys2Proof.Machine.execFnew a b x y n s
  | .fret a b x n => Sys2Proof.Machine.execFret a b x n s
  | .colalloc a x y t n => Sys2Proof.Machine.execColalloc a x y t n s
  | .colret a x y t n => Sys2Proof.Machine.execColret a x y t n s
  | .pack a b x y t n => Sys2Proof.Machine.execPack a b x y t n s
  | .unpack a x y t n => Sys2Proof.Machine.execUnpack a x y t n s
  | .iadd a b x y t n => Sys2Proof.Machine.execIadd a b x y t n s
  | .isub a b x y t n => Sys2Proof.Machine.execIsub a b x y t n s
  | .imul a b x y t n => Sys2Proof.Machine.execImul a b x y t n s
  | .imulh a b x y t n => Sys2Proof.Machine.execImulh a b x y t n s
  | .idiv a b x y t n => Sys2Proof.Machine.execIdiv a b x y t n s
  | .irem a b x y t n => Sys2Proof.Machine.execIrem a b x y t n s
  | .elAnd a b x y t n => Sys2Proof.Machine.execElAnd a b x y t n s
  | .elOr a b x y t n => Sys2Proof.Machine.execElOr a b x y t n s
  | .elXor a b x y t n => Sys2Proof.Machine.execElXor a b x y t n s
  | .elAndn a b x y t n => Sys2Proof.Machine.execElAndn a b x y t n s
  | .elShl a b x y t n => Sys2Proof.Machine.execElShl a b x y t n s
  | .elShr a b x y t n => Sys2Proof.Machine.execElShr a b x y t n s
  | .elSar a b x y t n => Sys2Proof.Machine.execElSar a b x y t n s
  | .elRot a b x y t n => Sys2Proof.Machine.execElRot a b x y t n s
  | .elMin a b x y t n => Sys2Proof.Machine.execElMin a b x y t n s
  | .elMax a b x y t n => Sys2Proof.Machine.execElMax a b x y t n s
  | .elMinu a b x y t n => Sys2Proof.Machine.execElMinu a b x y t n s
  | .elMaxu a b x y t n => Sys2Proof.Machine.execElMaxu a b x y t n s
  | .cmp a b x y t n => Sys2Proof.Machine.execCmp a b x y t n s
  | .sel a b x y t n => Sys2Proof.Machine.execSel a b x y t n s
  | .elBfx a x y t n => Sys2Proof.Machine.execElBfx a x y t n s
  | .elBfi a b x y t n => Sys2Proof.Machine.execElBfi a b x y t n s
  | .elClz a x y t n => Sys2Proof.Machine.execElClz a x y t n s
  | .elPopc a x y t n => Sys2Proof.Machine.execElPopc a x y t n s
  | .addsat a b x y t n => Sys2Proof.Machine.execAddsat a b x y t n s
  | .abs a x y t n => Sys2Proof.Machine.execAbs a x y t n s
  | .agen a b x y n => Sys2Proof.Machine.execAgen a b x y n s
  | .ainc a b x y t n => Sys2Proof.Machine.execAinc a b x y t n s
  | .aidx a b x y t n => Sys2Proof.Machine.execAidx a b x y t n s
  | .ldt a b x y t n => Sys2Proof.Machine.execLdt a b x y t n s
  | .stt a b x y t n => Sys2Proof.Machine.execStt a b x y t n s
  | .lds a b x y t n => Sys2Proof.Machine.execLds a b x y t n s
  | .sts a b x y t n => Sys2Proof.Machine.execSts a b x y t n s
  | .atom a b x y t n => Sys2Proof.Machine.execAtom a b x y t n s
  | .atomr a b x y t n => Sys2Proof.Machine.execAtomr a b x y t n s
  | .casr a b x y t n => Sys2Proof.Machine.execCasr a b x y t n s
  | .elFence a b x y t n => Sys2Proof.Machine.execElFence a b x y t n s
  | .pref a b x y t n => Sys2Proof.Machine.execPref a b x y t n s
  | .wbld a b x y t n => Sys2Proof.Machine.execWbld a b x y t n s
  | .cpy a b x t n => Sys2Proof.Machine.execCpy a b x t n s
  | .cpyw a b x t n => Sys2Proof.Machine.execCpyw a b x t n s
  | .mcst a b x y t n => Sys2Proof.Machine.execMcst a b x y t n s
  | .sigop a b x y t n => Sys2Proof.Machine.execSigop a b x y t n s
  | .ringpop a b x y t n => Sys2Proof.Machine.execRingpop a b x y t n s
  | .ringrel a b x y t n => Sys2Proof.Machine.execRingrel a b x y t n s
  | .gqp a b x t n => Sys2Proof.Machine.execGqp a b x t n s
  | .evset a x y t n => Sys2Proof.Machine.execEvset a x y t n s
  | .evwait a x y t n => Sys2Proof.Machine.execEvwait a x y t n s
  | .trap a b x y t n => Sys2Proof.Machine.execTrap a b x y t n s
  | .brkp a x y t n => Sys2Proof.Machine.execBrkp a x y t n s
  | .vadd a b x y t n => Sys2Proof.Machine.execVadd a b x y t n s
  | .vsub a b x y t n => Sys2Proof.Machine.execVsub a b x y t n s
  | .vmul a b x y t n => Sys2Proof.Machine.execVmul a b x y t n s
  | .vfma a b x y t n => Sys2Proof.Machine.execVfma a b x y t n s
  | .vmin a b x y t n => Sys2Proof.Machine.execVmin a b x y t n s
  | .vmax a b x y t n => Sys2Proof.Machine.execVmax a b x y t n s
  | .vabs a x y t n => Sys2Proof.Machine.execVabs a x y t n s
  | .vneg a x y t n => Sys2Proof.Machine.execVneg a x y t n s
  | .viadd a b x y t n => Sys2Proof.Machine.execViadd a b x y t n s
  | .visub a b x y t n => Sys2Proof.Machine.execVisub a b x y t n s
  | .vimul a b x y t n => Sys2Proof.Machine.execVimul a b x y t n s
  | .vimin a b x y t n => Sys2Proof.Machine.execVimin a b x y t n s
  | .vimax a b x y t n => Sys2Proof.Machine.execVimax a b x y t n s
  | .vcmp a b x y t n => Sys2Proof.Machine.execVcmp a b x y t n s
  | .vsel a b x y t n => Sys2Proof.Machine.execVsel a b x y t n s
  | .vand a b x y t n => Sys2Proof.Machine.execVand a b x y t n s
  | .vor a b x y t n => Sys2Proof.Machine.execVor a b x y t n s
  | .vxor a b x y t n => Sys2Proof.Machine.execVxor a b x y t n s
  | .vshl a b x y t n => Sys2Proof.Machine.execVshl a b x y t n s
  | .vshr a b x y t n => Sys2Proof.Machine.execVshr a b x y t n s
  | .vsar a b x y t n => Sys2Proof.Machine.execVsar a b x y t n s
  | .vcvt a x y t n => Sys2Proof.Machine.execVcvt a x y t n s
  | .vsplit a x y t n => Sys2Proof.Machine.execVsplit a x y t n s
  | .vexp2 a x y t n => Sys2Proof.Machine.execVexp2 a x y t n s
  | .vlog2 a x y t n => Sys2Proof.Machine.execVlog2 a x y t n s
  | .vrcp a x y t n => Sys2Proof.Machine.execVrcp a x y t n s
  | .vrsq a x y t n => Sys2Proof.Machine.execVrsq a x y t n s
  | .vsqrt a x y t n => Sys2Proof.Machine.execVsqrt a x y t n s
  | .vsinpi a x y t n => Sys2Proof.Machine.execVsinpi a x y t n s
  | .vcospi a x y t n => Sys2Proof.Machine.execVcospi a x y t n s
  | .vtanh a x y t n => Sys2Proof.Machine.execVtanh a x y t n s
  | .vrsum a x y t n => Sys2Proof.Machine.execVrsum a x y t n s
  | .vrmax a x y t n => Sys2Proof.Machine.execVrmax a x y t n s
  | .vscan a x y t n => Sys2Proof.Machine.execVscan a x y t n s
  | .vtrans a x y t n => Sys2Proof.Machine.execVtrans a x y t n s
  | .vbcast a x y t n => Sys2Proof.Machine.execVbcast a x y t n s
  | .vperm a b x y t n => Sys2Proof.Machine.execVperm a b x y t n s
  | .vclamp a b x y t n => Sys2Proof.Machine.execVclamp a b x y t n s
  | .vextr a b x y t n => Sys2Proof.Machine.execVextr a b x y t n s
  | .vins a b x y t n => Sys2Proof.Machine.execVins a b x y t n s
  | .vzero a x y t n => Sys2Proof.Machine.execVzero a x y t n s
  | .mma a b x y t n => Sys2Proof.Machine.execMma a b x y t n s
  | .mmas a b x y t n => Sys2Proof.Machine.execMmas a b x y t n s
  | .mmaw a b x y t n => Sys2Proof.Machine.execMmaw a b x y t n s
  | .accz a x y t n => Sys2Proof.Machine.execAccz a x y t n s
  | .accrd a x y t n => Sys2Proof.Machine.execAccrd a x y t n s
  | .accld a x y t n => Sys2Proof.Machine.execAccld a x y t n s
  | .accadd a b x y t n => Sys2Proof.Machine.execAccadd a b x y t n s
  | .coldReset => Sys2Proof.Machine.execColdReset s
  | .go => Sys2Proof.Machine.execGo s
  | .sequencerRelease => Sys2Proof.Machine.execSequencerRelease s
  | .sequencerStop => Sys2Proof.Machine.execSequencerStop s
  | .mailboxWrite => Sys2Proof.Machine.execMailboxWrite s
  | .interruptEntry => Sys2Proof.Machine.execInterruptEntry s
  | .timerCompare => Sys2Proof.Machine.execTimerCompare s
  | .wfeWake => Sys2Proof.Machine.execWfeWake s
  | .cmnscrWrite => Sys2Proof.Machine.execCmnscrWrite s
  | .registerWrite => Sys2Proof.Machine.execRegisterWrite s
  | .tokenAccept => Sys2Proof.Machine.execTokenAccept s
  | .spillReturn => Sys2Proof.Machine.execSpillReturn s
  | .staleSweep => Sys2Proof.Machine.execStaleSweep s
  | .firingCompletion => Sys2Proof.Machine.execFiringCompletion s
  | .killTokenAccept => Sys2Proof.Machine.execKillTokenAccept s
  | .spillAreaAnnihilate => Sys2Proof.Machine.execSpillAreaAnnihilate s
  | .commitTokenAccept => Sys2Proof.Machine.execCommitTokenAccept s
  | .markTokenAccept => Sys2Proof.Machine.execMarkTokenAccept s
  | .cutStaging => Sys2Proof.Machine.execCutStaging s
  | .windowClose => Sys2Proof.Machine.execWindowClose s
  | .checkpointDrain => Sys2Proof.Machine.execCheckpointDrain s
  | .censusRoundStart => Sys2Proof.Machine.execCensusRoundStart s
  | .quietIntervalExpiry => Sys2Proof.Machine.execQuietIntervalExpiry s
  | .censusRoundOutcome => Sys2Proof.Machine.execCensusRoundOutcome s
  | .genBumpComplete => Sys2Proof.Machine.execGenBumpComplete s
  | .plotMove => Sys2Proof.Machine.execPlotMove s
  | .placementRetry => Sys2Proof.Machine.execPlacementRetry s
  | .placementBudgetExpiry => Sys2Proof.Machine.execPlacementBudgetExpiry s
  | .remoteEventOp => Sys2Proof.Machine.execRemoteEventOp s
  | .remoteEvwaitMet => Sys2Proof.Machine.execRemoteEvwaitMet s
  | .streamRefill => Sys2Proof.Machine.execStreamRefill s
  | .tableWalkComplete => Sys2Proof.Machine.execTableWalkComplete s
  | .memoryEntrySend => Sys2Proof.Machine.execMemoryEntrySend s
  | .homeAccessPerform => Sys2Proof.Machine.execHomeAccessPerform s
  | .memoryEntryAnswer => Sys2Proof.Machine.execMemoryEntryAnswer s
  | .poolAccessReturn => Sys2Proof.Machine.execPoolAccessReturn s
  | .invalidationComplete => Sys2Proof.Machine.execInvalidationComplete s
  | .ceCommandAccept => Sys2Proof.Machine.execCeCommandAccept s
  | .ceCommandEnd => Sys2Proof.Machine.execCeCommandEnd s
  | .sigopNotice => Sys2Proof.Machine.execSigopNotice s
  | .queueEnable => Sys2Proof.Machine.execQueueEnable s
  | .queueDisable => Sys2Proof.Machine.execQueueDisable s
  | .queueReset => Sys2Proof.Machine.execQueueReset s
  | .queueSeal => Sys2Proof.Machine.execQueueSeal s
  | .wakeRecord => Sys2Proof.Machine.execWakeRecord s
  | .packetIssue => Sys2Proof.Machine.execPacketIssue s
  | .nopPacket => Sys2Proof.Machine.execNopPacket s
  | .launch => Sys2Proof.Machine.execLaunch s
  | .waitsig => Sys2Proof.Machine.execWaitsig s
  | .signal => Sys2Proof.Machine.execSignal s
  | .copyPacket => Sys2Proof.Machine.execCopyPacket s
  | .gloadPacket => Sys2Proof.Machine.execGloadPacket s
  | .gevictPacket => Sys2Proof.Machine.execGevictPacket s
  | .barrier => Sys2Proof.Machine.execBarrier s
  | .ringbindBind => Sys2Proof.Machine.execRingbindBind s
  | .ringbindUnbind => Sys2Proof.Machine.execRingbindUnbind s
  | .debugPause => Sys2Proof.Machine.execDebugPause s
  | .debugResume => Sys2Proof.Machine.execDebugResume s
  | .debugStep => Sys2Proof.Machine.execDebugStep s
  | .debugWmark => Sys2Proof.Machine.execDebugWmark s
  | .debugRwin => Sys2Proof.Machine.execDebugRwin s
  | .debugRstep => Sys2Proof.Machine.execDebugRstep s
  | .debugWretire => Sys2Proof.Machine.execDebugWretire s
  | .prioPacket => Sys2Proof.Machine.execPrioPacket s
  | .queueUnblock => Sys2Proof.Machine.execQueueUnblock s
  | .waitsigSatisfied => Sys2Proof.Machine.execWaitsigSatisfied s
  | .launchRetry => Sys2Proof.Machine.execLaunchRetry s
  | .launchBudgetExpiry => Sys2Proof.Machine.execLaunchBudgetExpiry s
  | .launchCompletion => Sys2Proof.Machine.execLaunchCompletion s
  | .evictionSave => Sys2Proof.Machine.execEvictionSave s
  | .evictedPlotRestore => Sys2Proof.Machine.execEvictedPlotRestore s
  | .ethernetPacketReceive => Sys2Proof.Machine.execEthernetPacketReceive s
  | .arriveTimeout => Sys2Proof.Machine.execArriveTimeout s
  | .ethernetTransmit => Sys2Proof.Machine.execEthernetTransmit s
  | .faultRecordWrite => Sys2Proof.Machine.execFaultRecordWrite s
  | .settlementTakeEffect => Sys2Proof.Machine.execSettlementTakeEffect s
  | .prioLanding => Sys2Proof.Machine.execPrioLanding s
  | .pauseLanding => Sys2Proof.Machine.execPauseLanding s
  | .bridgeBeatError => Sys2Proof.Machine.execBridgeBeatError s
  | .remoteRequestTimeout => Sys2Proof.Machine.execRemoteRequestTimeout s
  | .krydeoftRead => Sys2Proof.Machine.execKrydeoftRead s
  | .krydeoftWrite => Sys2Proof.Machine.execKrydeoftWrite s
  | .krydeoftAtomic => Sys2Proof.Machine.execKrydeoftAtomic s
  | .krydeoftMcwrite => Sys2Proof.Machine.execKrydeoftMcwrite s
  | .krydeoftRdata => Sys2Proof.Machine.execKrydeoftRdata s
  | .krydeoftWack => Sys2Proof.Machine.execKrydeoftWack s
  | .krydeoftMack => Sys2Proof.Machine.execKrydeoftMack s
  | .mcstPeerTimeout => Sys2Proof.Machine.execMcstPeerTimeout s
  | .krydeoftCredit => Sys2Proof.Machine.execKrydeoftCredit s
  | .krydeoftLink => Sys2Proof.Machine.execKrydeoftLink s
  | .krydeoftPortEnable => Sys2Proof.Machine.execKrydeoftPortEnable s
  | .krydeoftPortDisable => Sys2Proof.Machine.execKrydeoftPortDisable s
  | .linkTrained => Sys2Proof.Machine.execLinkTrained s
  | .linkError => Sys2Proof.Machine.execLinkError s
  | .fencingDrained => Sys2Proof.Machine.execFencingDrained s
  | .fencingTimeout => Sys2Proof.Machine.execFencingTimeout s
  | .provisioningInstall => Sys2Proof.Machine.execProvisioningInstall s
  | .provisioningRevoke => Sys2Proof.Machine.execProvisioningRevoke s
  | .revokeComplete => Sys2Proof.Machine.execRevokeComplete s
  | .attestationRequest => Sys2Proof.Machine.execAttestationRequest s
  | .guestPortEnable => Sys2Proof.Machine.execGuestPortEnable s
  | .guestPortDisable => Sys2Proof.Machine.execGuestPortDisable s
  | .guestLinkTrained => Sys2Proof.Machine.execGuestLinkTrained s
  | .guestPause => Sys2Proof.Machine.execGuestPause s
  | .guestResume => Sys2Proof.Machine.execGuestResume s
  | .guestSave => Sys2Proof.Machine.execGuestSave s
  | .guestRestore => Sys2Proof.Machine.execGuestRestore s
  | .gqpAccept => Sys2Proof.Machine.execGqpAccept s
  | .guestCompletion => Sys2Proof.Machine.execGuestCompletion s
  | .guestCompletionEmit => Sys2Proof.Machine.execGuestCompletionEmit s
  | .guestTreq => Sys2Proof.Machine.execGuestTreq s
  | .rdshared => Sys2Proof.Machine.execRdshared s
  | .wrthru => Sys2Proof.Machine.execWrthru s
  | .guestAtomic => Sys2Proof.Machine.execGuestAtomic s
  | .clean => Sys2Proof.Machine.execClean s
  | .snpinvAnswer => Sys2Proof.Machine.execSnpinvAnswer s
  | .invdone => Sys2Proof.Machine.execInvdone s
  | .paused => Sys2Proof.Machine.execPaused s
  | .saved => Sys2Proof.Machine.execSaved s
  | .restored => Sys2Proof.Machine.execRestored s
  | .guestFaultRecord => Sys2Proof.Machine.execGuestFaultRecord s
  | .guestDutyTimeout => Sys2Proof.Machine.execGuestDutyTimeout s
  | .hostHdmAccess => Sys2Proof.Machine.execHostHdmAccess s
  | .hostSnoop => Sys2Proof.Machine.execHostSnoop s
  | .hostInvalidatePage => Sys2Proof.Machine.execHostInvalidatePage s
  | .hostInvalidateAsid => Sys2Proof.Machine.execHostInvalidateAsid s
  | .hostInvalidateAll => Sys2Proof.Machine.execHostInvalidateAll s
  | .snapshotTrigger => Sys2Proof.Machine.execSnapshotTrigger s
  | .powerSample => Sys2Proof.Machine.execPowerSample s
  | .illegalInstruction => Sys2Proof.Machine.execIllegalInstruction s
  | .fetchFault => Sys2Proof.Machine.execFetchFault s
  | .inletTemperatureLimit => Sys2Proof.Machine.execInletTemperatureLimit s
  | .guestMalformedMessage => Sys2Proof.Machine.execGuestMalformedMessage s

end Sys2Proof.Machine
end

