-- ==== Sys2Proof/Machine/LoadUse.lean ====
section
/-! DEFINITION. The general registers that an instruction of the sequencer reads, for the wait behind a load (R35). -/

namespace Sys2Proof.Machine

/-- R35: the general registers that an instruction reads. -/
def readsRegs (i : Instr) : List (BitVec 5) :=
  match i with
  | .add _ a b => [a, b]
  | .sub _ a b => [a, b]
  | .and _ a b => [a, b]
  | .or _ a b => [a, b]
  | .xor _ a b => [a, b]
  | .andn _ a b => [a, b]
  | .shl _ a b => [a, b]
  | .shr _ a b => [a, b]
  | .sar _ a b => [a, b]
  | .rot _ a b => [a, b]
  | .mul _ a b => [a, b]
  | .mulh _ a b => [a, b]
  | .mulhu _ a b => [a, b]
  | .div _ a b => [a, b]
  | .divu _ a b => [a, b]
  | .rem _ a b => [a, b]
  | .remu _ a b => [a, b]
  | .slt _ a b => [a, b]
  | .sltu _ a b => [a, b]
  | .seq _ a b => [a, b]
  | .min _ a b => [a, b]
  | .max _ a b => [a, b]
  | .minu _ a b => [a, b]
  | .maxu _ a b => [a, b]
  | .clz _ a => [a]
  | .ctz _ a => [a]
  | .popc _ a => [a]
  | .addi _ a _ => [a]
  | .andi _ a _ => [a]
  | .ori _ a _ => [a]
  | .xori _ a _ => [a]
  | .shli _ a _ => [a]
  | .shri _ a _ => [a]
  | .sari _ a _ => [a]
  | .slti _ a _ => [a]
  | .sltiu _ a _ => [a]
  | .ldhi _ a _ => [a]
  | .bfx _ a _ _ => [a]
  | .bfxs _ a _ _ => [a]
  | .bfi d a _ _ => [d, a]
  | .lb _ a _ => [a]
  | .lbu _ a _ => [a]
  | .lh _ a _ => [a]
  | .lhu _ a _ => [a]
  | .lw _ a _ => [a]
  | .lwu _ a _ => [a]
  | .ld _ a _ => [a]
  | .sb r a _ => [r, a]
  | .sh r a _ => [r, a]
  | .sw r a _ => [r, a]
  | .sd r a _ => [r, a]
  | .beq a b _ => [a, b]
  | .bne a b _ => [a, b]
  | .blt a b _ => [a, b]
  | .bge a b _ => [a, b]
  | .bltu a b _ => [a, b]
  | .bgeu a b _ => [a, b]
  | .jalr _ a _ => [a]
  | .crwr a _ => [a]
  | .crset _ a _ => [a]
  | .crclr _ a _ => [a]
  | .amoswap _ a b => [a, b]
  | .amocas _ a b c => [a, b, c]
  | .amoadd _ a b => [a, b]
  | .amoand _ a b => [a, b]
  | .amoor _ a b => [a, b]
  | .amoxor _ a b => [a, b]
  | .amomin _ a b => [a, b]
  | .amomax _ a b => [a, b]
  | .sev a => [a]
  | .gload _ a b => [a, b]
  | .gevict _ a => [a]
  | .falloc _ a b c => [a, b, c]
  | .ffree _ a => [a]
  | .fkill _ a => [a]
  | .tinj _ a b c => [a, b, c]
  | .census _ a b => [a, b]
  | .tlbiPage a b => [a, b]
  | .tlbiAsid b => [b]
  | .cprio _ a b => [a, b]
  | .csave _ a b c => [a, b, c]
  | .crstr _ a b c => [a, b, c]
  | .fres _ a b c => [a, b, c]
  | .fdisc _ a => [a]
  | .fretry _ a => [a]
  | .wmark _ a b => [a, b]
  | .wretire _ a b => [a, b]
  | .rwin _ a b => [a, b]
  | .rstep _ a b => [a, b]
  | .fstep _ a b => [a, b]
  | .wcfg _ a b c => [a, b, c]
  | .snap _ a => [a]
  | _ => []

/-- R35: the cycle that an instruction waits behind a load whose register it reads; what the load left is then past. -/
def State.afterLoad (s : State) (i : Instr) : State :=
  let q := s.me
  if q.loaded = 0 then s
  else s.setMe { q with loaded := 0, cycle := if (readsRegs i).contains q.loaded then q.cycle + 1 else q.cycle }

end Sys2Proof.Machine
end

