-- ==== Sys2Proof/Machine/Move.lean ====
section
/-! DEFINITION. Who moves, and what a move is: the instruction of a sequencer, the firing or the completion of an element, or an event; the moves that the
machine's state admits; and the placing of one word where the next step runs it. -/

namespace Sys2Proof.Machine

/-! A sequencer (R25, R27, R30) -/

/-- R25, R29, R30: the sequencer `s.cur` fetches the word at its pc and executes the instruction that the word decodes to. -/
def execute (s : State) : Result :=
  if (fetchProblem s.me).isSome then exec .fetchFault s
  else
    match decodeSeq (fetchWord s.me) with
    | some i => exec i (s.afterLoad i)
    | none => exec .illegalInstruction s

/-- R13, R26: a sequencer cycle in which nothing issues. -/
def idleCycle (s : State) (c : Nat) : Result :=
  if (s.seqOf c).cycle + 1 == (s.seqOf c).tcmp then exec .timerCompare { s with arg := { c := c } } else .next (s.setSeq c (s.seqOf c).tick)

/-- R13: a cycle passes for a sequencer whose instruction, taken up again, still waits. -/
def stillWaits (c : Nat) (r : Result) : Result :=
  match r with
  | .next t => if (t.seqOf c).run == .running && (t.seqOf c).wait.isSome then .next (t.setSeq c (t.seqOf c).tick) else r
  | _ => r

/-- R95, R86, R88, R253, R338, R349, R371, R446: a cycle of a sequencer whose instruction waits: it is complete, or taken up again where nothing else brings its end, or waits on. -/
def waitMove (s : State) (c : Nat) (w : SeqWait) : Result :=
  match w with
  | .again => stillWaits c (execute s)
  | .gather _ _ _ _ => if owed s (.seq c) then idleCycle s c else stillWaits c (execute s)
  | .fstep d p f step _ _ _ =>
    if step then stillWaits c (execute s)
    else if pauseDue s p f then idleCycle s c
    else .next (seqFinish s c d (statusWord stOK 0 0))
  | .prio d p => if prioDue s p then idleCycle s c else .next (seqFinish s c d (statusWord stOK 0 0))
  | .snap _ => stillWaits c (execute s)
  | .filling d p st => if beingFilled s p then idleCycle s c else .next (seqFinish s c d st)
  | .place _ _ _ _ _ _ _ => if budgetSpent (s.seqOf c) then exec .placementBudgetExpiry { s with arg := { c := c } } else idleCycle s c
  | _ => idleCycle s c

/-- R13, R25, R50: one boundary or idle cycle of the sequencer of cluster `c`: an interrupt is taken, the next instruction executes, or a cycle passes. Nothing happens in one that is HELD. -/
def seqMove (s : State) (c : Nat) : Result :=
  let s1 : State := { s with cur := c }
  let q := s1.me
  if !okC c then .fault .noUnit
  else
    match q.run with
    | .held => .next s
    | .halted => idleCycle s1 c
    | .waiting => if q.wakes then exec .wfeWake { s1 with arg := { c := c } } else idleCycle s1 c
    | .running =>
      match q.wait with
      | some w => waitMove s1 c w
      | none => if q.interrupts then exec .interruptEntry s1 else execute s1

/-! An element (R63, R65, R149, R169) -/

/-- R169: the element cycle of a cluster goes on with an element: its events are judged on the bits as they stood when the first of its elements began that cycle. -/
def beginCycle (s : State) (e : Nat) : State :=
  let c := clusterOfElem e
  let k := s.clusterOf c
  let el := s.elemOf e
  let n := max el.cyc (k.evCyc - 1)
  let s1 : State := if el.cyc = n then s else s.setElem e { el with cyc := n }
  if k.evCyc ≤ n then s1.updCluster c (fun k => { k with evAt := (s.seqOf c).evb, evCyc := n + 1 }) else s1

/-- R65, R73: the head of a route can leave it, or makes a report of exhausted spill room. -/
def headActs (s : State) (e x r : Nat) : Bool :=
  let c := s.ctxOf e x
  let rt := vget c.routes r 0
  headMoves s e x r || markTakes s e x r
    || (tokenWaits s e x r && (fifoHead s e x r).any (fun t => !(s.frameOf c.plid t.frame.toNat).episodes.contains (rtElem rt, rtCTX rt, chanRoute c.velem r, onRoute rt t)))

/-- R65: a route of an element to itself, by 14 times its context slot plus its number, can carry a token in this cycle. -/
def selfActs (s : State) (e n : Nat) : Bool :=
  let c := s.ctxOf e (n / 14)
  let rt := vget c.routes (n % 14) 0
  c.st != .free && rtV rt && rtTGT rt == 0 && rtElem rt == e && decide (Tab.getD (s.elemOf e).beats n 0 ≤ (s.elemOf e).cyc) && headActs s e (n / 14) (n % 14)

/-- R65, R165: the first route of an element to itself that can carry a token in this cycle: context slot and route. A context accepts in port order. -/
def selfRoute (s : State) (e : Nat) : Option (Nat × Nat) :=
  (leastBy (fun n => let rt := vget (s.ctxOf e (n / 14)).routes (n % 14) 0
    [rtCTX rt, rtPORT rt, n]) ((List.range 56).filter (selfActs s e))).map (fun n => (n / 14, n % 14))

/-- The event that takes a token of a kind from a route. -/
def takingEvent (k : Kind) : Instr :=
  match k with
  | .kill => .killTokenAccept
  | .commit => .commitTokenAccept
  | .mark => .markTokenAccept
  | .data | .tile | .fin | .bound | .poison => .tokenAccept

/-- R65: a route of the element to itself carries its head, whose beats it takes. -/
def selfTransfer (s : State) (e x r : Nat) : Result :=
  match fifoHead s e x r with
  | none => .next s
  | some t =>
    let el := s.elemOf e
    let n := el.cyc + 1 + ((t.tile.getD []).length + 63) / 64
    exec (takingEvent t.kind) { (s.setElem e { el with beats := Tab.set el.beats (14 * x + r) n }) with arg := { e := e, x := x, r := r } }

/-- A context slot of an element of which something holds. -/
def slotWhere (p : Nat → Bool) : Option Nat := (List.range 4).find? p

/-- R368: a pause or a resume that a context of the element can land. -/
def pauseAt (s : State) (e : Nat) : Option (Nat × Nat) :=
  (List.range 4).findSome? (fun x => if (s.ctxOf e x).st == .free then none
    else ((s.ctxOf e x).pauseReq.find? (fun q => pauseLands s e x q.1)).map (fun q => (x, q.1)))

/-- R338: a context of the element still has to land a priority: the arbiter's next choice uses it. -/
def prioPending (s : State) (e : Nat) : Bool := (List.range 4).any (fun x => (s.ctxOf e x).st == .live && (s.ctxOf e x).newPrio.isSome)

/-- An element that holds a context. -/
def occupied (el : Elem) : Bool := el.ctx.toList.any (fun c => c.st != .free)

/-- R63, R60: the operator of the slot that the arbiter chose fires. -/
def fireSite (s : State) (t : Site) : Result :=
  match readElem (vget (s.ctxOf t.e t.x).words t.k vacant) with
  | some i => exec i { s with site := some t }
  | none => .next s

/-- R63, R64: the arbiter's choice, and the end of the element cycle. -/
def arbitrate (s : State) (e : Nat) : Result :=
  let s1 : State := updateOrder s e
  match (if prioPending s1 e then none else chooseSite s1 e) with
  | some t => fireSite s1 t
  | none => .next (if occupied (s1.elemOf e) then s1.setElem e { s1.elemOf e with cyc := (s1.elemOf e).cyc + 1 } else s)

/-- R63, R65, R72, R149, R338, R368: one move of an element. Within an element cycle the firings that end complete; then each of its routes to itself carries a token; spilled tokens
return; priorities and pauses land; and the arbiter chooses a ready slot. (DEDUCED, unsafe: log 116.) -/
def elemMove (s : State) (e : Nat) : Result :=
  if !okE e then .fault .noUnit
  else
    let s1 : State := beginCycle s e
    match (nextFiring (s1.elemOf e)).filter (fun f => decide (f.2.ends ≤ (s1.elemOf e).cyc)) with
    | some (x, f) => exec .firingCompletion { s1 with arg := { e := e, x := x, k := f.k } }
    | none =>
      match selfRoute s1 e with
      | some (x, r) => selfTransfer s1 e x r
      | none =>
        match slotWhere (spillReturns s1 e) with
        | some x => exec .spillReturn { s1 with arg := { e := e, x := x } }
        | none =>
          match slotWhere (fun x => (s1.ctxOf e x).st != .free && prioLands s1 e x), pauseAt s1 e with
          | some x, _ => exec .prioLanding { s1 with arg := { e := e, x := x } }
          | none, some (x, f) => exec .pauseLanding { s1 with arg := { e := e, x := x, f := f } }
          | none, none => arbitrate s1 e

/-! A move -/

/-- R68: the sequencer cycles that a move lets pass, by cluster; one for a HELD sequencer, whose CYCLE stands still. -/
def cyclesPassed (s t : State) (a : Agent) : List (Nat × Nat) :=
  (match a with
    | .seq c => if (s.seqOf c).run = .held then [(c, 1)] else []
    | _ => [])
    ++ (Tab.keys t.seqs).filterMap (fun c => if (t.seqOf c).cycle = (s.seqOf c).cycle then none else some (c, ((t.seqOf c).cycle - (s.seqOf c).cycle).toNat))

/-- R76: the quiet counters after a move. -/
def countQuiet (s : State) (a : Agent) (t : State) : State := (cyclesPassed s t a).foldl (fun (u : State) (p : Nat × Nat) => quietPass u p.1 p.2) t

/-- What an agent does. -/
def agentMove (s : State) (a : Agent) : Result :=
  match a with
  | .seq c => seqMove s c
  | .elem e => elemMove s e
  | .event ev arg => exec ev { s with arg := arg }
  | .filled e x => onUnit (okX e x) (fillEnds s e x)
  | .latch b => .next (latchBlock s b)
  | .upset u k => .next (upset s u k)

/-- R76: what a move answers, with the quiet counters of the state that it leaves. -/
def quietAfter (s : State) (a : Agent) (r : Result) : Result :=
  match r with
  | .next t => .next (countQuiet s a t)
  | .fault f => .fault f
  | .refused f => .refused f

/-- A move of an agent. -/
def runAgent (s : State) (a : Agent) : Result := quietAfter s a (agentMove s a)

/-! The moves that a state admits -/

/-- Events of a context slot. -/
def ctxMoves (s : State) (e x : Nat) : List Agent :=
  let c := s.ctxOf e x
  let routes := (List.range 14).filter (fun r => !(vget c.fifo r []).isEmpty
    && !(rtTGT (vget c.routes r 0) == 0 && rtElem (vget c.routes r 0) == e))
  let frames := match s.placeOf c.plid with
    | some pl => Tab.keys pl.frames
    | none => []
  if c.st = .free then []
  else
    routes.flatMap (fun r => [Instr.tokenAccept, .killTokenAccept, .commitTokenAccept, .markTokenAccept, .ceCommandAccept, .gqpAccept].map (fun i =>
      Agent.event i { e := e, x := x, r := r }))
      ++ [.event .spillAreaAnnihilate { e := e, x := x }, .filled e x]
      ++ frames.flatMap (fun f => [Instr.cutStaging, .checkpointDrain].map (fun i => Agent.event i { e := e, x := x, f := f }))

/-- R169: the elements of a cluster that hold contexts, each with its element cycle. -/
def elemCycles (s : State) (c : Nat) : List (Nat × Nat) :=
  (s.elems.filter (fun e => clusterOfElem e.1 == c && occupied e.2)).map (fun e => (e.1, max e.2.cyc ((s.clusterOf c).evCyc - 1)))

/-- R169: the element of a cluster that moves next: they go through each element cycle in their order. -/
def nextElem (s : State) (c : Nat) : Option (Nat × Nat) := leastBy (fun p => [p.2, p.1]) (elemCycles s c)

/-- R169, R24: no element cycle of a cluster is under way. -/
def cycleOver (s : State) (c : Nat) : Bool := (nextElem s c).all (fun p => decide ((s.clusterOf c).evCyc ≤ p.2))

/-- R231, R256: the events of an entry's access that may perform. -/
def performMoves (e : Nat) (m : MemEntry) : List Agent :=
  (if m.todo.isEmpty then [0] else m.todo).map (fun n => .event .homeAccessPerform { e := e, k := m.id, n := n })

/-- Moves of an element. -/
def elemMoves (s : State) (e : Nat) : List Agent :=
  (if (nextElem s (clusterOfElem e)).any (fun p => p.1 == e) then [.elem e] else [])
    ++ .event .staleSweep { e := e } :: (List.range 4).flatMap (ctxMoves s e)
    ++ (s.elemOf e).port.flatMap (fun m =>
      [Instr.streamRefill, .tableWalkComplete, .memoryEntrySend, .memoryEntryAnswer, .poolAccessReturn].map (fun i => Agent.event i { e := e, k := m.id })
        ++ performMoves e m
        ++ (if cycleOver s (s.ctxOf e m.x).evcl then [Instr.remoteEventOp, .remoteEvwaitMet].map (fun i => Agent.event i { e := e, k := m.id }) else []))

/-- Moves of a cluster's sequencer, fault queue and copy engine. -/
def clusterMoves (s : State) (c : Nat) : List Agent :=
  (if cycleOver s c then [.seq c] else []) ++ [.event .placementRetry { c := c }, .event .faultRecordWrite { c := c }]
    ++ (s.clusterOf c).ce.flatMap (fun y =>
      (0 :: (if cyCopied y then [] else cyPieces y)).eraseDups.map (fun n => .event .ceCommandEnd { c := c, k := y.id, n := n }))
    ++ (s.clusterOf c).dir.map (fun p => .event .settlementTakeEffect { c := c, k := p.id })

/-- Moves that concern a placement and its frames. -/
def placeMoves (s : State) (p : Nat) (pl : Placement) : List Agent :=
  .event .plotMove { p := p } :: (Tab.keys pl.frames).flatMap (fun f =>
    [.event .windowClose { p := p, f := f }, .event .censusRoundOutcome { p := p, f := f }]
      ++ (roundClusters s p f).flatMap (fun c => [Instr.censusRoundStart, .genBumpComplete].map (fun i => Agent.event i { c := c, p := p, f := f })))

/-- Moves of the Reeve for a queue. -/
def queueMoves (q : Nat) (k : Queue) : List Agent :=
  .event .queueUnblock { q := q } :: k.going.flatMap (fun g =>
    [.event (packetEvent g.pkt.bytes) { q := q, k := g.pkt.id }, .event .waitsigSatisfied { q := q, k := g.pkt.id },
      .event .launchRetry { q := q, k := g.pkt.id }, .event .launchBudgetExpiry { q := q, k := g.pkt.id },
      .event .evictionSave { q := q, k := g.pkt.id }, .event .placementRetry { q := q, k := g.pkt.id, ok := true },
      .event .placementBudgetExpiry { q := q, k := g.pkt.id, ok := true }])

/-- Moves of the package's edges: links, other packages, the guest, Ethernet. -/
def edgeMoves (s : State) : List Agent :=
  s.remotes.map (fun r => if r.mc then .event .mcstPeerTimeout { k := r.rid, p := r.peer } else .event .remoteRequestTimeout { k := r.rid })
    ++ (Tab.keys s.kports).flatMap (fun n => [.event .fencingDrained { n := n }, .event .fencingTimeout { n := n }])
    ++ (Tab.keys s.rings).map (fun r => .event .arriveTimeout { r := r })
    ++ (Tab.keys s.guest.tags).map (fun r => .event .guestCompletionEmit { r := r })
    ++ s.guest.pend.map (fun r => .event r.1 r.2)
    ++ (0 :: Tab.keys s.guest.ctxs).flatMap (fun k => [2, 3, 4, 6].map (fun n => .event .guestDutyTimeout { k := k, n := n }))
    ++ (Tab.keys s.dev.keys).map (fun k => .event .revokeComplete { k := k })

/-- Every move that some part of the package might make. -/
def candidateMoves (s : State) : List Agent :=
  (Tab.keys s.elems).flatMap (elemMoves s) ++ ((Tab.keys s.seqs ++ Tab.keys s.clusters).eraseDups.filter okC).flatMap (clusterMoves s)
    ++ s.places.flatMap (fun p => placeMoves s p.1 p.2) ++ s.queues.flatMap (fun q => queueMoves q.1 q.2)
    ++ (List.range s.walks.length).map (fun n => .event .tableWalkComplete { n := n, ok := true })
    ++ s.invals.map (fun v => .event .invalidationComplete { k := v.k })
    ++ s.posted.map (fun w => .event .homeAccessPerform { k := w.id, ok := true })
    ++ s.dev.latching.map (fun b => .latch b)
    ++ [.event .packetIssue {}, .event .evictedPlotRestore {}, .event .sigopNotice {}] ++ edgeMoves s

/-- A move that changes something: one that changes nothing has nothing to do yet. -/
def changes (s : State) (a : Agent) : Bool :=
  match runAgent s a with
  | .next t => decide ({ t with cur := s.cur, site := s.site, arg := s.arg } ≠ s)
  | _ => true

/-- The moves that a state admits, each with the state in which it is made: those of the package, and the next input of the outside world. -/
def openMoves (s : State) : List (State × Agent) :=
  ((candidateMoves s).filter (changes s)).map (fun a => (s, a))
    ++ match s.inputs with
      | [] => []
      | a :: rest => [({ s with inputs := rest }, a)]

/-- The next move: the first that is due; else one of those that the state admits, which one being left open; none in an idle machine. -/
def pickMove (s : State) : Option (State × Agent) :=
  match s.agenda with
  | a :: rest => some ({ s with agenda := rest }, a)
  | [] =>
    let l := openMoves s
    (l[Config.pick s.turn l.length % l.length]?).map (fun m => ({ m.1 with turn := s.turn + 1 }, m.2))

/-! One word where the next step runs it -/

/-- A token of a kind on a port, of frame 0. -/
def portToken (ord p : Nat) (k : Kind) : MsEntry :=
  { tok := { tokZero with
      kind := k, port := BitVec.ofNat 4 p, payload := if k = .tile then word (at' 0xB 60 + at' 7 48 + at' 0xFF 32) else 0
      tile := if k = .tile then some (List.replicate 64 0) else none }
    slot := none, net := false, ord := ord, st := .idle }

/-- An element operator's word in slot 0 of context slot 0 of element 0, which holds nothing else, with a token on each of its input ports and its routes open, in frame 0 of
placement 0, the event bit that an EVWAIT tests set; the element moves next. -/
def placeElement (s : State) (w : BitVec 32) : State :=
  let a := if wSA w < 12 then [portToken 0 (wSA w) ((kindsA (wOPC w) 0).headD .data)] else []
  let b := if wSB w < 12 then [portToken 1 (wSB w) ((kindsB (wOPC w) 0).headD .data)] else []
  let c : Ctx := { ctxFree with
    st := .live, words := vset ctxFree.words 0 w, ccw := 1, part := word (at' 1 0 + at' 4 8), ms := a ++ b }
  let pl : Placement := {
    n := 1, entries := [], parts := [c.part], tsinit := [0], edges := [], guestPlots := [], map := [some (0, 0)], saved := [], stagedIn := [], moving := none,
    saving := [], root := none, prio := none, oneDie := false, frames := [(0, { frameFree with st := .running })], transient := false }
  let met (q : Seq) : Seq := if wOPC w = 0x58 then { q with evb := vset q.evb 0 1 } else q
  let s1 : State := s.setElem 0 { elemReset with ctx := vset elemReset.ctx 0 c, cyc := max (s.elemOf 0).cyc ((s.clusterOf 0).evCyc - 1) }
  { (if wOPC w = 0x58 then s1.updCluster 0 (fun k => { k with evAt := vset k.evAt 0 1 }) else s1) with
    places := Tab.set s.places 0 pl, agenda := [.elem 0], seqs := if wOPC w = 0x58 then Tab.set s.seqs 0 (met (s.seqOf 0)) else s.seqs }

/-- A sequencer's word at the pc of the sequencer `s.cur`, which runs and moves next. -/
def placeSeqWord (s : State) (w : BitVec 32) : State :=
  let q := s.me
  { (s.setMe { q with run := .running, wait := none, mem := memWrite q.mem q.pc.toNat (leBytes 4 w.toNat),
                      memErr := q.memErr.filter (· != q.pc.toNat / 8) }) with agenda := [.seq s.cur] }

end Sys2Proof.Machine
end

