-- ==== Sys2Proof/Machine/Step.lean ====
section
/-! DEFINITION. One step of the machine, and the placing of one word for the step to run. -/

namespace Sys2Proof.Machine

/-- One step: the next move is made. An idle machine stays as it is. -/
def step (s : State) : Host.Outcome State Fault Refusal :=
  match pickMove s with
  | some m => runAgent m.1 m.2
  | none => .next s

/-- The state with one word of the opcode table stored where the next step runs it: an element operator's word in a slot of an element, another word at the
sequencer's pc. (DEDUCED, safe: log 5.) -/
def State.withFetchWord (s : State) (nbits w : Nat) : State :=
  let v := BitVec.ofNat 32 w
  if nbits = 32 then (if tableElem v then placeElement s v else placeSeqWord s v) else s

end Sys2Proof.Machine
end

