-- ==== Sys2Proof/Safety.lean ====
section
/-! DEFINITION. What claims about the machine are stated in: what a step leaves as it was, and the canonical form of every memory. -/

namespace Sys2Proof.Machine

/-! What a sequencer's instruction leaves alone -/

/-- From `s` to `t` nothing changed but the sequencer of cluster `c`, which is now `q`. -/
def OnlySeq (s t : State) (c : Nat) (q : Seq) : Prop :=
  t.seqOf c = q ∧ (∀ k, k ≠ c → t.seqOf k = s.seqOf k) ∧ { t with seqs := s.seqs } = s

/-- From `s` to `t` nothing changed but the executing sequencer, which is now `q`. -/
def OnlyMe (s t : State) (q : Seq) : Prop := OnlySeq s t s.cur q

/-- The sequencer after an instruction that only goes on: pc at `pc'`, CYCLE further by `cost`. -/
def Seq.went (q : Seq) (pc' : Word) (cost : Nat) : Seq := { q with pc := pc', cycle := q.cycle + word cost, wait := none }

/-- From `s` to `t` the executing sequencer wrote `v` to g[d] (nothing where d is g0) and went on to pc' in `cost` cycles; every other register
and every other part of the machine is as it was. -/
def Wrote (s t : State) (d : BitVec 5) (v : Word) (pc' : Word) (cost : Nat) : Prop :=
  (∀ r, t.reg r = if r = d ∧ r ≠ 0 then v else s.reg r) ∧
    OnlyMe s t { s.me.went pc' cost with g := t.me.g }

/-- From `s` to `t` the executing sequencer went on to pc' in `cost` cycles; every register and every other part of the machine is as it was. -/
def WentOn (s t : State) (pc' : Word) (cost : Nat) : Prop := OnlyMe s t (s.me.went pc' cost)

/-- The executing sequencer trapped (R28): its registers as TrapEntry leaves them, every general register, every byte of memory and every other part
of the machine as it was. -/
def Trapped (s t : State) (code sub : Nat) (val : Word) : Prop :=
  OnlyMe s t (trapEntry code sub val false s.me.pc s.me)

/-! What the start of a firing leaves alone -/

/-- The next element operator is `i`, at the site `t`: its slot holds the word of `i`. -/
def FiresAt (s : State) (i : Instr) (t : Site) : Prop :=
  s.site = some t ∧ t.x < 4 ∧ encode i = some (vget (s.ctxOf t.e t.x).words t.k vacant)

/-- R61, R63, R111, R149: from `s` to `u` the firing of the site `t` has started and will do `out` after `len` cycles, holding its unit for `hold`. Its operands
are taken in the matching store; the element's arbiter has passed one cycle and points at the slot; the frame has been touched (its activity in the cluster, R68); and every slot word,
attribute, slot-state word, route, FIFO, tile slot, accumulator, other context, other element, sequencer and byte of memory is as it was, and of the device
only the count of uncorrectable words that the firing reads (R447) may change. -/
def Started (s u : State) (t : Site) (out : FireOut) (len hold : Nat) : Prop :=
  let F := fireOf s t
  let c := s.ctxOf t.e t.x
  let el := s.elemOf t.e
  (∃ fl : Firing, fl.k = t.k ∧ fl.opc = wOPC F.w ∧ fl.opA = F.a ∧ fl.opB = F.b ∧ fl.tag = F.tag ∧ fl.out = out ∧ fl.ends = el.cyc + len ∧
      fl.cancel = false ∧ fl.spare = spareSlots el t.x c F out ∧
      { u.ctxOf t.e t.x with order := c.order, budget := c.budget, stepped := c.stepped } =
        { c with
          ms := c.ms.map (fun m => if (t.a.toList ++ t.b.toList ++ t.scales).contains m.ord then { m with st := .firing t.k } else m),
          inflight := c.inflight ++ [fl] }) ∧
    (∀ x, x ≠ t.x → u.ctxOf t.e x = s.ctxOf t.e x) ∧
    (u.elemOf t.e).cyc = el.cyc + 1 ∧ (u.elemOf t.e).rr = 16 * t.x + t.k ∧
    { u.elemOf t.e with ctx := el.ctx, cyc := el.cyc, rr := el.rr, busy := el.busy } = el ∧
    (∀ n, vget (u.elemOf t.e).busy n [] = if n = (unitOf (wOPC F.w)).index then heldSpans el (unitOf (wOPC F.w)) ++ [(el.cyc + heldAfter (wOPC F.w), el.cyc + heldAfter (wOPC F.w) + hold)] else vget el.busy n []) ∧
    (∀ e, e ≠ t.e → u.elemOf e = s.elemOf e) ∧
    (∀ k, { u.clusterOf k with act := (s.clusterOf k).act } = s.clusterOf k) ∧
    { u with elems := s.elems, clusters := s.clusters, places := s.places, site := s.site } = countBadReads s F

/-- The operator `i` completes its start: it answers a next state in which the firing of `t` has started. -/
def FiresAs (s : State) (i : Instr) (t : Site) (out : FireOut) (len hold : Nat) : Prop :=
  ∃ u, exec i s = .next u ∧ Started s u t out len hold

/-! What poison does to a firing -/

/-- R336, R337: what each operator that poison does not stop in every setting does with its operands. -/
def soundOut (i : Instr) : Option (Fire → FireOut) :=
  match i with
  | .steer .. => some outSteer
  | .merge .. => some outMerge
  | .lcarry .. => some outLcarry
  | .lexit .. => some outLexit
  | .bound .. => some outBound
  | .endq .. => some outEndq
  | .gate .. => some outPass
  | .join .. => some (fun F => F.data 0)
  | .copy .. => some outPass
  | .sink .. => some outSink
  | .const .. => some (fun F => F.data F.cfg)
  | .commit .. => some outCommit
  | .kill .. => some outKill
  | .fnew .. => some outFnew
  | .fret .. => some outFret
  | .colalloc .. => some outColalloc
  | .colret .. => some outColret
  | .pack .. => some outPack
  | .unpack .. => some outUnpack
  | .trap .. => some outTrap
  | .iadd .. => some (outScalar aluAdd)
  | .isub .. => some (outScalar aluSub)
  | .elAnd .. => some (outScalar aluAnd)
  | .elOr .. => some (outScalar aluOr)
  | .elXor .. => some (outScalar aluXor)
  | .elAndn .. => some (outScalar aluAndn)
  | .elShl .. => some (outScalar aluShl)
  | .elShr .. => some (outScalar aluShr)
  | .elSar .. => some (outScalar aluSar)
  | .elRot .. => some (outScalar aluRot)
  | .elMin .. => some (outScalar aluMin)
  | .elMax .. => some (outScalar aluMax)
  | .elMinu .. => some (outScalar aluMinu)
  | .elMaxu .. => some (outScalar aluMaxu)
  | .imul .. => some (outScalar aluMul)
  | .imulh .. => some (outScalar aluMulh)
  | .elClz .. => some (outUnary aluClz)
  | .elPopc .. => some (outUnary aluPopc)
  | .idiv .. => some outIdiv
  | .irem .. => some outIrem
  | .cmp .. => some outCmp
  | .sel .. => some outSel
  | .elBfx .. => some outBfx
  | .elBfi .. => some outBfi
  | .addsat .. => some outAddsat
  | .abs .. => some outAbs
  | .ainc .. => some outAinc
  | .aidx .. => some outAidx
  | .vadd .. => some (laneTwo laneAdd)
  | .vsub .. => some (laneTwo laneSub)
  | .vmul .. => some (laneTwo laneMul)
  | .vfma .. => some (laneTwo laneFma)
  | .vmin .. => some (laneTwo (fun F => fpPick false F.fp))
  | .vmax .. => some (laneTwo (fun F => fpPick true F.fp))
  | .vabs .. => some (laneOne (fpSign false))
  | .vneg .. => some (laneOne (fpSign true))
  | .viadd .. => some (laneTwo (laneInt (· + ·)))
  | .visub .. => some (laneTwo (laneInt (· - ·)))
  | .vimul .. => some (laneTwo (laneInt (· * ·)))
  | .vimin .. => some (laneTwo (fun F => intPick false (vIF F.cfg)))
  | .vimax .. => some (laneTwo (fun F => intPick true (vIF F.cfg)))
  | .vcmp .. => some (laneTwo laneCmp)
  | .vsel .. => some outVsel
  | .vand .. => some (laneTwo (laneBits (· &&& ·)))
  | .vor .. => some (laneTwo (laneBits (· ||| ·)))
  | .vxor .. => some (laneTwo (laneBits (· ^^^ ·)))
  | .vshl .. => some (laneTwo (laneShift 0))
  | .vshr .. => some (laneTwo (laneShift 1))
  | .vsar .. => some (laneTwo (laneShift 2))
  | .vcvt .. => some outVcvt
  | .vsplit .. => some outVsplit
  | .vexp2 .. => some (laneOne (laneFn fnExp2))
  | .vlog2 .. => some (laneOne (laneFn fnLog2))
  | .vrcp .. => some (laneOne (laneFn fnRcp))
  | .vrsq .. => some (laneOne (laneFn fnRsq))
  | .vsqrt .. => some (laneOne (laneFn fnSqrt))
  | .vsinpi .. => some (laneOne (laneFn fnSinpi))
  | .vcospi .. => some (laneOne (laneFn fnCospi))
  | .vtanh .. => some (laneOne (laneFn fnTanh))
  | .vrsum .. => some (outReduce reduceSum)
  | .vrmax .. => some (outReduce reduceMax)
  | .vscan .. => some outScan
  | .vtrans .. => some outVtrans
  | .vbcast .. => some outVbcast
  | .vperm .. => some outVperm
  | .vextr .. => some outVextr
  | .vins .. => some outVins
  | .vzero .. => some outVzero
  | .vclamp .. => some (laneTwo laneClamp)
  | _ => none

/-- R336: the firing with its POISON operands read as DATA of payload 0. -/
def Fire.clean (F : Fire) : Fire := { F with a := cleanOperand F.a, b := cleanOperand F.b }

/-- R336: a poisoned firing of payload `v` leaves POISON in place of every DATA, TILE or BOUND that the operator `g` makes of the cleaned operands, on each destination it
chooses; where `g` can form no result, on every destination that the word names. -/
def poisonedOut (g : Fire → FireOut) (F : Fire) (v : Word) : FireOut :=
  match g F.clean with
  | .emit rs sw posts => .emit (rs.map (fun r => match r.tok.kind with
      | .data | .tile | .bound => { r with tok := { r.tok with kind := .poison, level := 0, payload := v, tile := none, slotRef := none } }
      | _ => r)) sw posts
  | .fault _ _ => .emit (F.clean.both (F.clean.tok .poison v)) none []

/-! What translation does with an entry of a memory port -/

/-- R242: from `s` to `u` entry `m` of element `e` faulted: it left its port, and its frame's home has its fault in the directory and one FIRING record of it
more, with the code and the value. -/
def EntryFaulted (s u : State) (e : Nat) (m : MemEntry) (code : Nat) (v : Word) : Prop :=
  let home := (s.frameOf m.plid (mFrame m)).home
  u.entry? e m.id = none ∧ u.hbm = s.hbm ∧
    (∃ d, (u.clusterOf home).dir = (s.clusterOf home).dir ++ [d] ∧ d.plid = m.plid ∧ d.k = m.k) ∧
    ∃ r, (u.clusterOf home).recq = (s.clusterOf home).recq ++ [r] ∧ r.kind = 0 ∧ r.code = code ∧ r.fval = v ∧ r.opc = mOpc m

/-- R220, R225, R242, R250: what translation makes of entry `m` of element `e`: without a root it faults with the first byte of its lowest line; else every line is translated, the failure of the
lowest address faults the entry with that address, and an entry whose target passes its checks stands translated with its lines. PREF never faults here, and
keeps the lines that it acts on. -/
def Translates (s u : State) (e : Nat) (m : MemEntry) : Prop :=
  match rootOf s m.plid with
  | none =>
    if mOpc m = 0x4B then u.entry? e m.id = some { m with st := .translated, lines := [] }
    else EntryFaulted s u e m cTRANSLATION (word ((leastBy (fun va => [va]) ((pieces m).map (·.1))).getD m.va))
  | some root =>
    let rs := translateAll s e m root
    let m1 := { m with
      st := .translated
      lines := (rs.filterMap (fun p => p.2.toOption.map (·.1))).filter (actsOn m)
      grp := if mOpc m = 0x52 then some (mcGroup s m) else none }
    match (if mOpc m = 0x4B then none else firstFailure rs) with
    | some (code, va) => EntryFaulted s u e m code (word va)
    | none =>
      match targetCheck s m1 with
      | some (code, v) => EntryFaulted s u e m code v
      | none => u.entry? e m.id = some m1

/-! The canonical form of every memory -/

/-- Every memory of a state is in canonical form: HBM, the host's and the guest's memory, BAR2, each local memory, each commons and each element's pool. -/
def State.memoriesWf (s : State) : Prop :=
  memWf s.hbm = true ∧ memWf s.hostMem = true ∧ memWf s.guestMem = true ∧ memWf s.dev.bar2 = true ∧
    (∀ c, memWf (s.seqOf c).mem = true) ∧ (∀ c, memWf (s.clusterOf c).com = true) ∧
    (∀ e x, memWf (s.ctxOf e x).pool = true)

/-- A step goes on: it neither faults nor is refused. -/
def GoesOn (r : Host.Outcome State Fault Refusal) : Prop := ∃ t, r = .next t

end Sys2Proof.Machine
end

