-- ==== Sys2Proof/Certificates/Slice0/Obligations.lean ====
section
/-! DEFINITION. The statements made of this model for the provers: what its instructions and events do, from the spec's numbered rules. -/

open Sys2Proof Sys2Proof.Machine

/-! Reset, decoding and the step -/

/-- R13, R17, R20 to R22, R55, R112, R115, R214, R296, R325, R402, R420, R435: the machine right after reset. Where it goes beyond the rules' words it rests on the model's choices in log entries 15, 117, 135. -/
def Obligations.ResetState : Prop :=
  (∀ c, let q := State.reset.seqOf c
    q.run = .held ∧ q.pc = 0 ∧ q.status = 1 ∧ q.kernel = true ∧ q.xe = false ∧ q.tvec = 0 ∧ q.tpc = 0 ∧ q.tcause = 0 ∧ q.tval = 0 ∧
      q.kscratch = 0 ∧ q.twin = 1 ∧ q.cycle = 0 ∧ q.tcmp = BitVec.allOnes 64 ∧ q.ptbase = 0 ∧ q.asid = 0 ∧ q.fqhead = 0 ∧ q.fqtail = 0 ∧
      q.cmnscr = 60 ∧ q.fqbase = 59 ∧ q.fqseq = 0 ∧ (∀ r, q.reg r = 0) ∧ (∀ k, vget q.mbox k 0 = 0) ∧ (∀ k, vget q.evb k 0 = 0) ∧
      (∀ k, vget q.evm k 0 = 0)) ∧
    (∀ e x, (State.reset.ctxOf e x).st = .free ∧ (∀ k, vget (State.reset.ctxOf e x).words k vacant = 0x0BFFFF00#32)) ∧
    (∀ q, (State.reset.queueOf q).st = .disabled) ∧ (∀ n, (kportOf State.reset n).st = .down) ∧ State.reset.guest.st = .down ∧
    (∀ p, State.reset.placeOf p = none)

/-- R25, R27, R30, R35: a RUNNING sequencer that is the next to move (what is due moves first; else one is picked), takes no interrupt, waits for nothing and may fetch its pc executes what the word at
pc decodes to; behind a load whose register the instruction reads, one cycle later. The quiet counters of R76 count the cycles that pass, which changes frames'
counters and what they make due, and nothing else. Where it goes beyond the rules' words it rests on the model's choices in log entries 1, 2. -/
def Obligations.StepRunsTheDecodedInstruction : Prop :=
  (∀ (s s0 : State) (c : Nat) (i : Instr), c < 576 → pickMove s = some (s0, .seq c) →
    (s0.seqOf c).run = .running → (s0.seqOf c).wait = none → (s0.seqOf c).interrupts = false → fetchProblem (s0.seqOf c) = none →
    decodeSeq (fetchWord (s0.seqOf c)) = some i →
    step s = quietAfter s0 (.seq c) (exec i ({ s0 with cur := c }.afterLoad i))) ∧
  (∀ (s : State) (a : Agent) (rest : List Agent), s.agenda = a :: rest → pickMove s = some ({ s with agenda := rest }, a)) ∧
  (∀ (s t : State) (a : Agent), ∃ u, quietAfter s a (.next t) = .next u ∧ { u with places := t.places, agenda := t.agenda } = t ∧
    ∀ p f, { u.frameOf p f with quiet := (t.frameOf p f).quiet } = t.frameOf p f)

/-- R63, R103, R104: an element that is the next to move, and in whose element cycle no firing ends, no route to itself carries a token, no spilled token returns and
no priority or pause lands, executes the operator in the slot that the arbiter chose, at the operands that the slot takes; an event that is the next to happen
happens: the step is its meaning, told what the event is about. Where it goes beyond the rules' words it rests on the model's choices in log entries 1, 2, 3. -/
def Obligations.StepFiresOperatorsAndMakesEventsHappen : Prop :=
  (∀ (s s0 : State) (e : Nat) (t : Site) (i : Instr), e < 9216 → pickMove s = some (s0, .elem e) →
    let s1 : State := beginCycle s0 e
    (∀ x f, x < 4 → f ∈ (s1.ctxOf e x).inflight → (s1.elemOf e).cyc < f.ends) → selfRoute s1 e = none →
    (∀ x, x < 4 → spillReturns s1 e x = false ∧ (s1.ctxOf e x).newPrio = none ∧ (s1.ctxOf e x).pauseReq = []) →
    chooseSite (updateOrder s1 e) e = some t →
    readElem (vget ((updateOrder s1 e).ctxOf t.e t.x).words t.k vacant) = some i →
    step s = quietAfter s0 (.elem e) (exec i { (updateOrder s1 e) with site := some t })) ∧
  (∀ (s s0 : State) (ev : Instr) (a : Arg), pickMove s = some (s0, .event ev a) → step s = quietAfter s0 (.event ev a) (exec ev { s0 with arg := a }))

/-- R29, R30, R36, R40, R46, R48, R52, R103, R104: words written out from the spec's encodings decode to the instructions that they stand for. -/
def Obligations.WordsDecodeAsEncoded : Prop :=
  decodeSeq 0x1061FFFE#32 = some (.addi 3 1 0xFFFE) ∧ decodeSeq 0x00000000#32 = some (.add 0 0 0) ∧
    decodeSeq 0x94032000#32 = some (.crset 0 3 0) ∧ decodeSeq 0x98862802#32 = some (.amoadd 4 6 5) ∧
    decodeSeq 0x18200123#32 = some (.ori 1 0 0x123) ∧ decodeSeq 0x3C411808#32 = some (.bfxs 2 1 24 8) ∧
    decodeSeq 0xD0850000#32 = some (.snap 4 5) ∧ decodeSeq 0xA8000000#32 = none ∧
    decodeElem 0x561E2F00#32 = some (.gqp 1 14 2 0 0) ∧ decodeElem 0x52011204#32 = some (.mcst 0 1 1 2 0 4) ∧
    decodeElem 0x0BFFFF00#32 = some (.sink 15 0 0)

/-- R29, R30: for every instruction of the sequencer, with every value of every field, decoding its word gives it back, and a word has one reading: what decodes
encodes back to the same word. -/
def Obligations.SequencerWordsRoundTrip : Prop :=
  ∀ (i : Instr) (w : BitVec 32), encodeSeq i = some w ↔ decodeSeq w = some i

/-- R103 to R107: for every well-formed operator of the element, with every value of every field, decoding its word gives it back. -/
def Obligations.ElementWordsRoundTrip : Prop :=
  ∀ (i : Instr) (f : ElemFields), i.elemFields = some f → i.wf = true → decodeElem (encodeElem f) = some i

/-! The sequencer's registers (R17, R34 to R41) -/

/-- R36, R35, R17, R34: the integer register group. -/
def Obligations.IntegerGroupResults : Prop :=
  ∀ (s : State) (d a b : BitVec 5), s.me.stopReq = false →
    let A := s.reg a
    let B := s.reg b
    let n := B.toNat % 64
    (∃ t, exec (.add d a b) s = .next t ∧ Wrote s t d (A + B) (s.me.pc + 4) 1) ∧
    (∃ t, exec (.sub d a b) s = .next t ∧ Wrote s t d (A - B) (s.me.pc + 4) 1) ∧
    (∃ t, exec (.and d a b) s = .next t ∧ Wrote s t d (A &&& B) (s.me.pc + 4) 1) ∧
    (∃ t, exec (.or d a b) s = .next t ∧ Wrote s t d (A ||| B) (s.me.pc + 4) 1) ∧
    (∃ t, exec (.xor d a b) s = .next t ∧ Wrote s t d (A ^^^ B) (s.me.pc + 4) 1) ∧
    (∃ t, exec (.andn d a b) s = .next t ∧ Wrote s t d (A &&& ~~~B) (s.me.pc + 4) 1) ∧
    (∃ t, exec (.shl d a b) s = .next t ∧ Wrote s t d (BitVec.ofNat 64 (A.toNat * 2 ^ n)) (s.me.pc + 4) 1) ∧
    (∃ t, exec (.shr d a b) s = .next t ∧ Wrote s t d (BitVec.ofNat 64 (A.toNat / 2 ^ n)) (s.me.pc + 4) 1) ∧
    (∃ t, exec (.sar d a b) s = .next t ∧ Wrote s t d (BitVec.ofInt 64 (A.toInt / 2 ^ n)) (s.me.pc + 4) 1) ∧
    (∃ t, exec (.rot d a b) s = .next t ∧
      Wrote s t d (BitVec.ofNat 64 (A.toNat * 2 ^ n) ||| BitVec.ofNat 64 (A.toNat / 2 ^ (64 - n))) (s.me.pc + 4) 1)

/-- R37, R35, R17, R34: the multiply and divide group. -/
def Obligations.MultiplyDivideResults : Prop :=
  ∀ (s : State) (d a b : BitVec 5), s.me.stopReq = false →
    let A := s.reg a
    let B := s.reg b
    let ovf := A = 0x8000000000000000#64 ∧ B = BitVec.allOnes 64
    (∃ t, exec (.mul d a b) s = .next t ∧ Wrote s t d (BitVec.ofInt 64 (A.toInt * B.toInt)) (s.me.pc + 4) 3) ∧
    (∃ t, exec (.mulh d a b) s = .next t ∧ Wrote s t d (BitVec.ofInt 64 ((A.toInt * B.toInt) / 2 ^ 64)) (s.me.pc + 4) 3) ∧
    (∃ t, exec (.mulhu d a b) s = .next t ∧ Wrote s t d (BitVec.ofNat 64 ((A.toNat * B.toNat) / 2 ^ 64)) (s.me.pc + 4) 3) ∧
    (∃ t, exec (.div d a b) s = .next t ∧
      Wrote s t d (if B = 0 then 0xFFFFFFFFFFFFFFFF#64 else if ovf then 0x8000000000000000#64
        else BitVec.ofInt 64 (A.toInt.tdiv B.toInt)) (s.me.pc + 4) 66) ∧
    (∃ t, exec (.divu d a b) s = .next t ∧
      Wrote s t d (if B = 0 then 0xFFFFFFFFFFFFFFFF#64 else BitVec.ofNat 64 (A.toNat / B.toNat)) (s.me.pc + 4) 66) ∧
    (∃ t, exec (.rem d a b) s = .next t ∧
      Wrote s t d (if B = 0 then A else if ovf then 0
        else BitVec.ofInt 64 (A.toInt - B.toInt * A.toInt.tdiv B.toInt)) (s.me.pc + 4) 66) ∧
    (∃ t, exec (.remu d a b) s = .next t ∧
      Wrote s t d (if B = 0 then A else BitVec.ofNat 64 (A.toNat - B.toNat * (A.toNat / B.toNat))) (s.me.pc + 4) 66)

/-- R38, R39, R35, R17, R34: comparisons, minima, maxima and counts. -/
def Obligations.CompareAndCountResults : Prop :=
  ∀ (s : State) (d a b : BitVec 5), s.me.stopReq = false →
    let A := s.reg a
    let B := s.reg b
    (∃ t, exec (.slt d a b) s = .next t ∧ Wrote s t d (if A.toInt < B.toInt then 1 else 0) (s.me.pc + 4) 1) ∧
    (∃ t, exec (.sltu d a b) s = .next t ∧ Wrote s t d (if A.toNat < B.toNat then 1 else 0) (s.me.pc + 4) 1) ∧
    (∃ t, exec (.seq d a b) s = .next t ∧ Wrote s t d (if A = B then 1 else 0) (s.me.pc + 4) 1) ∧
    (∃ t, exec (.min d a b) s = .next t ∧ Wrote s t d (BitVec.ofInt 64 (min A.toInt B.toInt)) (s.me.pc + 4) 1) ∧
    (∃ t, exec (.max d a b) s = .next t ∧ Wrote s t d (BitVec.ofInt 64 (max A.toInt B.toInt)) (s.me.pc + 4) 1) ∧
    (∃ t, exec (.minu d a b) s = .next t ∧ Wrote s t d (BitVec.ofNat 64 (min A.toNat B.toNat)) (s.me.pc + 4) 1) ∧
    (∃ t, exec (.maxu d a b) s = .next t ∧ Wrote s t d (BitVec.ofNat 64 (max A.toNat B.toNat)) (s.me.pc + 4) 1) ∧
    (∃ t n, exec (.clz d a) s = .next t ∧ Wrote s t d (BitVec.ofNat 64 n) (s.me.pc + 4) 1 ∧ n ≤ 64 ∧
      A.toNat < 2 ^ (64 - n) ∧ (n < 64 → 2 ^ (63 - n) ≤ A.toNat)) ∧
    (∃ t n, exec (.ctz d a) s = .next t ∧ Wrote s t d (BitVec.ofNat 64 n) (s.me.pc + 4) 1 ∧ n ≤ 64 ∧
      A.toNat % 2 ^ n = 0 ∧ (n < 64 → A.getLsbD n = true)) ∧
    (∃ t, exec (.popc d a) s = .next t ∧
      Wrote s t d (BitVec.ofNat 64 ((List.range 64).map (fun k => (A.getLsbD k).toNat)).sum) (s.me.pc + 4) 1)

/-- R40, R35, R17, R34: the immediate group and LDHI. -/
def Obligations.ImmediateGroupResults : Prop :=
  ∀ (s : State) (d a : BitVec 5) (imm : BitVec 16) (n : BitVec 6), s.me.stopReq = false →
    let A := s.reg a
    (∃ t, exec (.addi d a imm) s = .next t ∧ Wrote s t d (A + imm.signExtend 64) (s.me.pc + 4) 1) ∧
    (∃ t, exec (.andi d a imm) s = .next t ∧ Wrote s t d (A &&& imm.zeroExtend 64) (s.me.pc + 4) 1) ∧
    (∃ t, exec (.ori d a imm) s = .next t ∧ Wrote s t d (A ||| imm.zeroExtend 64) (s.me.pc + 4) 1) ∧
    (∃ t, exec (.xori d a imm) s = .next t ∧ Wrote s t d (A ^^^ imm.zeroExtend 64) (s.me.pc + 4) 1) ∧
    (∃ t, exec (.shli d a n) s = .next t ∧ Wrote s t d (BitVec.ofNat 64 (A.toNat * 2 ^ n.toNat)) (s.me.pc + 4) 1) ∧
    (∃ t, exec (.shri d a n) s = .next t ∧ Wrote s t d (BitVec.ofNat 64 (A.toNat / 2 ^ n.toNat)) (s.me.pc + 4) 1) ∧
    (∃ t, exec (.sari d a n) s = .next t ∧ Wrote s t d (BitVec.ofInt 64 (A.toInt / 2 ^ n.toNat)) (s.me.pc + 4) 1) ∧
    (∃ t, exec (.slti d a imm) s = .next t ∧ Wrote s t d (if A.toInt < imm.toInt then 1 else 0) (s.me.pc + 4) 1) ∧
    (∃ t, exec (.sltiu d a imm) s = .next t ∧
      Wrote s t d (if A.toNat < (imm.signExtend 64).toNat then 1 else 0) (s.me.pc + 4) 1) ∧
    (∃ t, exec (.ldhi d a imm) s = .next t ∧
      Wrote s t d (BitVec.ofNat 64 (A.toNat % 2 ^ 48 * 2 ^ 16 + imm.toNat)) (s.me.pc + 4) 1)

/-- R41, R35, R17, R34: the bit-field group, bit by bit. -/
def Obligations.BitFieldResults : Prop :=
  ∀ (s : State) (d a : BitVec 5) (o w : BitVec 8), s.me.stopReq = false →
    let A := s.reg a
    let f := fun (i : Nat) => decide (i < w.toNat ∧ o.toNat + i ≤ 63) && A.getLsbD (o.toNat + i)
    (∃ t v, exec (.bfx d a o w) s = .next t ∧ Wrote s t d v (s.me.pc + 4) 1 ∧ ∀ i, i < 64 → v.getLsbD i = f i) ∧
    (∃ t v, exec (.bfxs d a o w) s = .next t ∧ Wrote s t d v (s.me.pc + 4) 1 ∧
      ∀ i, i < 64 → v.getLsbD i = (if w.toNat = 0 then false else if w.toNat ≤ i then decide (w.toNat ≤ 64) && f (w.toNat - 1) else f i)) ∧
    (∃ t v, exec (.bfi d a o w) s = .next t ∧ Wrote s t d v (s.me.pc + 4) 1 ∧
      ∀ i, i < 64 → v.getLsbD i =
        (if o.toNat ≤ i ∧ i < o.toNat + w.toNat then A.getLsbD (i - o.toNat) else (s.reg d).getLsbD i))

/-! Loads, stores and atomics (R42, R43, R48, R252) -/

/-- R14, R18, R43: an access of `n` bytes at an address that the local window admits. -/
def LocalAccess (s : State) (a n : Nat) : Prop :=
  a % n = 0 ∧ a < 0x40000 ∧ (s.me.kernel = true ∨ s.me.taskPage a = true)

/-- R252: what an access of the sequencer finds of walks: a fresh one starts without any. -/
def accessState (s : State) : State := if s.me.wait.isNone then walksPast s (.seq s.cur) else s

/-- R252, R226: translation is on, and an aligned access of `n` bytes at or above 0x4_0000 needs no walk. -/
def FarAccess (s : State) (kind : AccKind) (va n : Nat) : Prop :=
  s.me.xe = true ∧ va % n = 0 ∧ 0x40000 ≤ va ∧
    walkNeeded (accessState s) (seqAccess s.me s.cur kind) s.me.tlb s.cur (seqRoot s.me) [(va, n)] = none

/-- R252, R220, R224: it reaches address `x` of local HBM, whose line passes its check, through the leaf `lf`; no write holds the line, the guest holds no copy of it,
and no bridge loses its data. -/
def FarHbm (s : State) (kind : AccKind) (va n x : Nat) (lf : Leaf) : Prop :=
  FarAccess s kind va n ∧ ∃ ln, seqTranslate (accessState s) kind va n = .ok (ln, lf) ∧ ln.loc = .hbm x ∧ x % 128 + n ≤ 128 ∧
    hbmOk s ln.key x n = true ∧ lineHeld s ln.loc = false ∧ x / 128 ∉ s.guest.copies ∧ beatLost s (.seq s.cur) (homeDie s ln.loc) (s.cur / 96) = false

/-- What a translated access of the sequencer to HBM leaves alone: other sequencers, the elements, the placements, the commons and every other memory. -/
def FarFrame (s t : State) : Prop :=
  (∀ k, k ≠ s.cur → t.seqOf k = s.seqOf k) ∧ t.elems = s.elems ∧ t.places = s.places ∧ (∀ c, (t.clusterOf c).com = (s.clusterOf c).com) ∧
    t.hostMem = s.hostMem ∧ t.guestMem = s.guestMem ∧ t.dev = s.dev ∧ t.walks = s.walks

/-- R42, R43, R35, R252: a load in the local window reads its bytes, lowest address lowest, and extends them by its row of R42; nothing else changes, but that the
next instruction knows which register was loaded. With translation on, a load at or above 0x4_0000 does the same with the bytes of HBM that its address reaches, and the
leaf it used stands in the sequencer's entry. -/
def Obligations.LocalLoadResults : Prop :=
  ∀ (s : State) (d a : BitVec 5) (imm : BitVec 16) (n : Nat) (sx : Bool) (i : Instr),
    (i, n, sx) ∈ [(.lb d a imm, 1, true), (.lbu d a imm, 1, false), (.lh d a imm, 2, true), (.lhu d a imm, 2, false),
      (.lw d a imm, 4, true), (.lwu d a imm, 4, false), (Instr.ld d a imm, 8, false)] →
    let va := s.reg a + imm.signExtend 64
    let ext := fun (v : Nat) => if sx then BitVec.ofInt 64 (if v < 2 ^ (8 * n - 1) then (v : Int) else (v : Int) - 2 ^ (8 * n)) else BitVec.ofNat 64 v
    s.me.stopReq = false →
    (LocalAccess s va.toNat n → va.toNat / 8 ∉ s.me.memErr →
      ∃ t, exec i s = .next t ∧ (∀ r, t.reg r = if r = d ∧ r ≠ 0 then ext (leNat (memRead s.me.mem va.toNat n)) else s.reg r) ∧
        OnlyMe s t { s.me.went (s.me.pc + 4) 1 with g := t.me.g, loaded := d }) ∧
    (∀ x lf, FarHbm s .read va.toNat n x lf →
      ∃ t, exec i s = .next t ∧ (∀ r, t.reg r = if r = d ∧ r ≠ 0 then ext (leNat (memRead s.hbm x n)) else s.reg r) ∧
        t.me = { s.me.went (s.me.pc + 4) 1 with g := t.me.g, loaded := d, tlb := some lf } ∧ t.hbm = s.hbm ∧ FarFrame s t)

/-- R42, R43, R35, R252: a store in the local window writes the low bytes of g[s] at its address and no other byte; with translation on, a store at or above 0x4_0000
does so in the HBM that its address reaches. -/
def Obligations.LocalStoreResults : Prop :=
  ∀ (s : State) (r a : BitVec 5) (imm : BitVec 16) (n : Nat) (i : Instr),
    (i, n) ∈ [(.sb r a imm, 1), (.sh r a imm, 2), (.sw r a imm, 4), (Instr.sd r a imm, 8)] →
    let va := (s.reg a + imm.signExtend 64).toNat
    let byte := fun k => BitVec.ofNat 8 ((s.reg r).toNat / 2 ^ (8 * k))
    s.me.stopReq = false →
    (memWf s.me.mem = true → LocalAccess s va n → (n = 8 ∨ va / 8 ∉ s.me.memErr) →
      ∃ t, exec i s = .next t ∧ (∀ k, k < n → memByte t.me.mem (va + k) = byte k) ∧
        (∀ x, x < va ∨ va + n ≤ x → memByte t.me.mem x = memByte s.me.mem x) ∧ memWf t.me.mem = true ∧
        OnlyMe s t { s.me.went (s.me.pc + 4) 1 with mem := t.me.mem, memErr := t.me.memErr } ∧
        (n < 8 → t.me.memErr = s.me.memErr) ∧ (n = 8 → ∀ u, u ∈ t.me.memErr ↔ u ∈ s.me.memErr ∧ u ≠ va / 8)) ∧
    (∀ x lf, memWf s.hbm = true → FarHbm s .write va n x lf →
      ∃ t, exec i s = .next t ∧ (∀ k, k < n → memByte t.hbm (x + k) = byte k) ∧ (∀ y, y < x ∨ x + n ≤ y → memByte t.hbm y = memByte s.hbm y) ∧
        t.me = { s.me.went (s.me.pc + 4) 1 with tlb := some lf } ∧ FarFrame s t)

/-- R48, R35, R252: an atomic in the local window writes its word by its sub-code, returns the old word in g[d] and changes no other byte; with translation on, an
atomic at or above 0x4_0000 does so in the HBM that its address reaches. -/
def Obligations.LocalAtomicResults : Prop :=
  ∀ (s : State) (d a b c : BitVec 5) (i : Instr) (f : Word → Option Word),
    let va := (s.reg a).toNat
    let B := s.reg b
    (i, f) ∈ [(.amoswap d a b, fun _ => some B), (.amocas d a b c, fun o => if o = s.reg c then some B else none),
        (.amoadd d a b, fun o => some (o + B)), (.amoand d a b, fun o => some (o &&& B)), (.amoor d a b, fun o => some (o ||| B)),
        (.amoxor d a b, fun o => some (o ^^^ B)), (.amomin d a b, fun o => some (BitVec.ofInt 64 (min o.toInt B.toInt))),
        (Instr.amomax d a b, fun o => some (BitVec.ofInt 64 (max o.toInt B.toInt)))] →
    s.me.stopReq = false →
    (memWf s.me.mem = true → LocalAccess s va 8 → va / 8 ∉ s.me.memErr →
      ∃ t, exec i s = .next t ∧
        memWord t.me.mem va = (f (memWord s.me.mem va)).getD (memWord s.me.mem va) ∧
        (∀ x, x < va ∨ va + 8 ≤ x → memByte t.me.mem x = memByte s.me.mem x) ∧ memWf t.me.mem = true ∧
        (∀ r, t.reg r = if r = d ∧ r ≠ 0 then memWord s.me.mem va else s.reg r) ∧
        OnlyMe s t { s.me.went (s.me.pc + 4) 4 with g := t.me.g, mem := t.me.mem }) ∧
    (∀ x lf, memWf s.hbm = true → FarHbm s .atomic va 8 x lf →
      ∃ t, exec i s = .next t ∧ memWord t.hbm x = (f (memWord s.hbm x)).getD (memWord s.hbm x) ∧
        (∀ y, y < x ∨ x + 8 ≤ y → memByte t.hbm y = memByte s.hbm y) ∧ (∀ r, t.reg r = if r = d ∧ r ≠ 0 then memWord s.hbm x else s.reg r) ∧
        t.me = { s.me.went (s.me.pc + 4) 4 with g := t.me.g, tlb := some lf } ∧ FarFrame s t)

/-- R16, R27 rows 7 to 10, R43, R48, R252: with translation off, a data access traps for the first of these: misaligned (ALIGNMENT); at or above
0x4_0000 (BOUNDS); outside the Task window at Task level (PERMISSION); a load, an atomic or a store of fewer than 8 bytes at a word with an uncorrectable
error (INTEGRITY). With translation on (R252, R226), an access at or above 0x4_0000 is ALIGNMENT, then BOUNDS beyond the address space, then the code that translation
gives, each with the address; or it waits, for a walk or for a write that holds its line. The destination register and the memory keep their values; an uncorrectable
read is counted (R447). -/
def Obligations.DataAccessTraps : Prop :=
  ∀ (s : State) (d a b c : BitVec 5) (imm : BitVec 16) (n : Nat) (va : Word) (kind : AccKind) (i : Instr),
    (i, va, n, kind) ∈ ([(.lb d a imm, 1, .read), (.lbu d a imm, 1, .read), (.lh d a imm, 2, .read), (.lhu d a imm, 2, .read), (.lw d a imm, 4, .read),
        (.lwu d a imm, 4, .read), (.ld d a imm, 8, .read), (.sb d a imm, 1, .write), (.sh d a imm, 2, .write), (.sw d a imm, 4, .write),
        (Instr.sd d a imm, 8, AccKind.write)].map (fun p => (p.1, s.reg a + imm.signExtend 64, p.2)) ++
        [.amoswap d a b, .amocas d a b c, .amoadd d a b, .amoand d a b, .amoor d a b, .amoxor d a b, .amomin d a b, Instr.amomax d a b].map
          (fun j => (j, s.reg a, 8, .atomic))) →
    let full := match i with
      | .sd _ _ _ => true
      | _ => false
    (va.toNat % n ≠ 0 → ∃ t, exec i s = .next t ∧ Trapped s t 0x07 0 va) ∧
    (va.toNat % n = 0 → 0x40000 ≤ va.toNat → s.me.xe = false ∨ 2 ^ 58 ≤ va.toNat → ∃ t, exec i s = .next t ∧ Trapped s t 0x0E 0 va) ∧
    (FarAccess s kind va.toNat n → ∀ code, seqTranslate (accessState s) kind va.toNat n = .error code →
      ∃ t, exec i s = .next t ∧ Trapped { s with dev := t.dev } t code 0 va ∧ (code ≠ 0x12 → t.dev = s.dev)) ∧
    (s.me.xe = true → va.toNat % n = 0 → 0x40000 ≤ va.toNat →
      (∃ w, walkNeeded (accessState s) (seqAccess s.me s.cur kind) s.me.tlb s.cur (seqRoot s.me) [(va.toNat, n)] = some w) ∨
      (FarAccess s kind va.toNat n ∧ ∃ ln lf, seqTranslate (accessState s) kind va.toNat n = .ok (ln, lf) ∧ lineHeld s ln.loc = true) →
      ∃ t, exec i s = .next t ∧ OnlyMe { s with walks := t.walks } t { s.me with wait := some .again }) ∧
    (va.toNat % n = 0 → va.toNat < 0x40000 → s.me.kernel = false → s.me.taskPage va.toNat = false →
      ∃ t, exec i s = .next t ∧ Trapped s t 0x06 0 va) ∧
    (LocalAccess s va.toNat n → va.toNat / 8 ∈ s.me.memErr → full = false → ∃ t, exec i s = .next t ∧ Trapped s t 0x12 0 va)

/-! Control flow, control registers, traps (R19 to R28, R44 to R51) -/

/-- R44, R35: a branch goes to pc + 4 × SignExtend(off16) in 2 cycles when its condition holds, else to pc + 4 in 1; no register, byte of memory or
other part of the machine changes. -/
def Obligations.BranchResults : Prop :=
  ∀ (s : State) (a b : BitVec 5) (o : BitVec 16) (i : Instr) (taken : Bool), s.me.stopReq = false →
    let A := s.reg a
    let B := s.reg b
    (i, taken) ∈ [(.beq a b o, decide (A = B)), (.bne a b o, decide (A ≠ B)), (.blt a b o, decide (A.toInt < B.toInt)),
      (.bge a b o, decide (B.toInt ≤ A.toInt)), (.bltu a b o, decide (A.toNat < B.toNat)), (Instr.bgeu a b o, decide (B.toNat ≤ A.toNat))] →
    ∃ t, exec i s = .next t ∧
      (if taken then WentOn s t (s.me.pc + BitVec.ofInt 64 (4 * o.toInt)) 2 else WentOn s t (s.me.pc + 4) 1)

/-- R45, R35: the jumps, and the one trap of JALR. -/
def Obligations.JumpResults : Prop :=
  ∀ (s : State) (d a : BitVec 5) (o : BitVec 26) (imm : BitVec 16), s.me.stopReq = false →
    let target := s.me.pc + BitVec.ofInt 64 (4 * o.toInt)
    let x := s.reg a + imm.signExtend 64
    (∃ t, exec (.j o) s = .next t ∧ WentOn s t target 2) ∧
    (∃ t, exec (.jal o) s = .next t ∧ Wrote s t 31 (s.me.pc + 4) target 2) ∧
    (x.toNat % 4 = 0 → ∃ t, exec (.jalr d a imm) s = .next t ∧ Wrote s t d (s.me.pc + 4) x 2) ∧
    (x.toNat % 4 ≠ 0 → ∃ t, exec (.jalr d a imm) s = .next t ∧ Trapped s t 0x07 0 x)

/-- R8, R9, R19 to R22, R46, R35, R214, R215, R309, R325: at Kernel level, for every assigned control register, CRRD
reads it, CRWR writes the fields that a write reaches, CRSET sets and CRCLR clears bits and return the value before. The register reads afterwards as its
writable fields of the new value and its other fields of the old; a write of a read-only one changes nothing; FQBASE takes at most 59, and nothing while the fault queue
holds an unread record; CMNSCR takes at most 60, keeps the fault queue and every bound ring inside the scratchpad and moves its boundary. Every other control register, every
general register but g[d] and everything else keeps its value. -/
def Obligations.ControlRegisterResults : Prop :=
  ∀ (s : State) (d a : BitVec 5) (n : BitVec 12) (old : Word), s.me.stopReq = false → s.me.kernel = true →
    crRead s s.cur n.toNat = some old →
    let on : Instr → Word → BitVec 5 → Prop := fun i new dst =>
      (i, new, dst) ∈ [(.crwr a n, s.reg a, 0), (.crset d a n, old ||| s.reg a, d), (Instr.crclr d a n, old &&& ~~~(s.reg a), d)]
    let q := s.me.went (s.me.pc + 4) 1
    (∃ t, exec (.crrd d n) s = .next t ∧ Wrote s t d old (s.me.pc + 4) 1) ∧
    (n.toNat ∉ [0x010, 0x020, 0x041, 0x100, 0x101, 0x102, 0x103] →
      ∀ (i : Instr) (new : Word) (dst : BitVec 5), on i new dst →
        ∃ t, exec i s = .next t ∧
          crRead t t.cur n.toNat = some ((old &&& ~~~(crMask n.toNat)) ||| (new &&& crMask n.toNat)) ∧
          (∀ m, m ≠ n.toNat → m ≠ 0x010 → crRead t t.cur m = crRead s s.cur m) ∧
          (∀ r, t.reg r = if r = dst ∧ r ≠ 0 then old else s.reg r) ∧
          OnlyMe s t { q with
            g := t.me.g, status := t.me.status, tvec := t.me.tvec, tpc := t.me.tpc, tcause := t.me.tcause, tval := t.me.tval, kscratch := t.me.kscratch
            twin := t.me.twin, tcmp := t.me.tcmp, ptbase := t.me.ptbase, asid := t.me.asid, fqhead := t.me.fqhead, mbox := t.me.mbox, evb := t.me.evb
            evm := t.me.evm }) ∧
    (n = 0x102 → ∀ (i : Instr) (new : Word) (dst : BitVec 5), on i new dst →
      ∃ t, exec i s = .next t ∧ (∀ r, t.reg r = if r = dst ∧ r ≠ 0 then old else s.reg r) ∧
        OnlyMe s t { q with g := t.me.g, fqbase := if s.me.fqhead = s.me.fqtail then word (min (field new 0 6) 59) else s.me.fqbase }) ∧
    (n = 0x100 → field s.me.fqbase 0 6 ≤ 59 → ringScru s s.cur ≤ 60 → memWf (s.clusterOf s.cur).com = true →
      ∀ (i : Instr) (new : Word) (dst : BitVec 5), on i new dst →
      ∃ t v, exec i s = .next t ∧ (∀ r, t.reg r = if r = dst ∧ r ≠ 0 then old else s.reg r) ∧
        v.toNat = max (max (min (field new 0 6) 60) (field s.me.fqbase 0 6 + 1)) (ringScru s s.cur) ∧
        t.me = { q with g := t.me.g, cmnscr := v } ∧ (∀ k, k ≠ s.cur → t.seqOf k = s.seqOf k ∧ t.clusterOf k = s.clusterOf k) ∧
        (∀ x, memByte (t.clusterOf s.cur).com x =
          if (scrBytes old ≤ x ∧ x < scrBytes v) ∨ (scrBytes v ≤ x ∧ x < scrBytes old) then 0 else memByte (s.clusterOf s.cur).com x) ∧
        { t.clusterOf s.cur with com := (s.clusterOf s.cur).com, comErr := (s.clusterOf s.cur).comErr, copies := (s.clusterOf s.cur).copies } = s.clusterOf s.cur ∧
        { t with seqs := s.seqs, clusters := s.clusters } = s) ∧
    (n.toNat ∈ [0x010, 0x020, 0x041, 0x101, 0x103] →
      (∃ t, exec (.crwr a n) s = .next t ∧ WentOn s t (s.me.pc + 4) 1) ∧
      (∃ t, exec (.crset d a n) s = .next t ∧ Wrote s t d old (s.me.pc + 4) 1) ∧
      (∃ t, exec (.crclr d a n) s = .next t ∧ Wrote s t d old (s.me.pc + 4) 1))

/-- R18, R19, R27 rows 4 and 5, R46: a control-register access to an unassigned number traps with ILLEGAL; at Task level any access but a CRRD of CYCLE or
CLID traps with PERMISSION; TVAL is the instruction word, and a CRRD of CYCLE or CLID at Task level reads it. -/
def Obligations.ControlRegisterTraps : Prop :=
  ∀ (s : State) (d a : BitVec 5) (n : BitVec 12) (i : Instr), i ∈ [.crrd d n, .crwr a n, .crset d a n, Instr.crclr d a n] →
    (crRead s s.cur n.toNat = none → ∃ t, exec i s = .next t ∧ Trapped s t 0x01 0 (instrWord i)) ∧
    (∀ old, crRead s s.cur n.toNat = some old → s.me.kernel = false → (i ≠ .crrd d n ∨ n ≠ 0x010 ∧ n ≠ 0x020) →
      ∃ t, exec i s = .next t ∧ Trapped s t 0x06 0 (instrWord i)) ∧
    (∀ old, crRead s s.cur n.toNat = some old → (n = 0x010 ∨ n = 0x020) → s.me.stopReq = false →
      ∃ t, exec (.crrd d n) s = .next t ∧ Wrote s t d old (s.me.pc + 4) 1)

/-- R28, R25, R18: what TrapEntry leaves: TPC, TCAUSE, TVAL and the saved level and enable; Kernel level with interrupts off and INTRAP set; pc at the vector, or
HALTED with DT set for a synchronous trap within a trap; a stop that was asked for lands before the handler's first instruction (R442). -/
def Obligations.TrapEntrySavesAndEnters : Prop :=
  ∀ (q : Seq) (code sub : Nat) (val pcTrap : Word) (isInt : Bool), code < 256 → sub < 256 → pcTrap.toNat % 4 = 0 → bit q.status 10 = false →
    let q' := trapEntry code sub val isInt pcTrap q
    q'.tpc = pcTrap ∧ field q'.tcause 0 8 = code ∧ field q'.tcause 8 8 = sub ∧ bit q'.tcause 63 = isInt ∧ q'.tval = val ∧
      bit q'.status 1 = bit q.status 0 ∧ bit q'.status 3 = bit q.status 2 ∧ bit q'.status 0 = true ∧ bit q'.status 2 = false ∧
      bit q'.status 9 = true ∧ (∀ k, k ∉ [0, 1, 2, 3, 9, 10] → bit q'.status k = bit q.status k) ∧ q'.cycle = q.cycle + 3 ∧
      q'.g = q.g ∧ q'.mem = q.mem ∧
      (bit q.status 9 && !isInt → bit q'.status 10 = true ∧ q'.run = .halted ∧ q'.pc = q.pc) ∧
      (!(bit q.status 9 && !isInt) → bit q'.status 10 = false ∧ q'.pc = q.tvec &&& ~~~3#64 ∧
        q'.run = if q.stopReq = true ∧ q.run = .running then .halted else q.run)

/-- R18, R27 row 5, R49: at Task level TRET, HALT and every instruction of major opcodes 0x30 to 0x34 trap with PERMISSION, TVAL the instruction word. -/
def Obligations.KernelOnlyInstructions : Prop :=
  ∀ (s : State) (i : Instr) (w : BitVec 32), encodeSeq i = some w → s.me.kernel = false →
    (i = .tret ∨ i = .halt ∨ 0x30 ≤ w.toNat / 2 ^ 26) → ∃ t, exec i s = .next t ∧ Trapped s t 0x06 0 (w.zeroExtend 64)

/-- R51, R28: SYSCALL and BRK take the trap TRAP_OP, SUB 0 and 1, with TVAL the zero-extended immediate, at either level. -/
def Obligations.SyscallAndBreakTrap : Prop :=
  ∀ (s : State) (imm : BitVec 16),
    (∃ t, exec (.syscall imm) s = .next t ∧ Trapped s t 0x0B 0 (imm.zeroExtend 64)) ∧
    (∃ t, exec (.brk imm) s = .next t ∧ Trapped s t 0x0B 1 (imm.zeroExtend 64))

/-- R49, R50, R28, R13, R252: the system group. NOP only goes on, and so does FENCE, but while a store of the sequencer to HOST or GUEST has still to perform, where it
waits; SEV sets the event bit g[a][7:0]; TRET restores pc, level and IE and clears INTRAP;
HALT stops with the stop address at itself; WFE goes on where its wake condition holds, else waits, in which CYCLE goes on. Where it goes beyond the rules' words it rests on the model's choices in log entries 12, 36. -/
def Obligations.SystemGroupResults : Prop :=
  ∀ (s : State) (a : BitVec 5), s.me.stopReq = false →
    (∃ t, exec .nop s = .next t ∧ WentOn s t (s.me.pc + 4) 1) ∧
    ((∀ w ∈ s.posted, w.owner ≠ .seq s.cur) → ∃ t, exec .fence s = .next t ∧ WentOn s t (s.me.pc + 4) 1) ∧
    ((∃ w ∈ s.posted, w.owner = .seq s.cur) → ∃ t, exec .fence s = .next t ∧ OnlyMe s t { s.me with wait := some .again }) ∧
    (∃ t, exec (.sev a) s = .next t ∧
      (∀ k, k < 256 → eventBit t s.cur k = (eventBit s s.cur k || decide (k = (s.reg a).toNat % 256))) ∧
      OnlyMe s t { s.me.went (s.me.pc + 4) 1 with evb := t.me.evb }) ∧
    (s.me.kernel = true → ∃ t st, exec .tret s = .next t ∧
      bit st 0 = bit s.me.status 1 ∧ bit st 2 = bit s.me.status 3 ∧ bit st 9 = false ∧
      (∀ k, k ∉ [0, 2, 9] → bit st k = bit s.me.status k) ∧
      OnlyMe s t { s.me.went (s.me.tpc &&& ~~~3#64) 2 with status := st }) ∧
    (s.me.kernel = true → ∃ t, exec .halt s = .next t ∧ OnlyMe s t { s.me with run := .halted, pcv := s.me.pc }) ∧
    (s.me.wakes = true → ∃ t, exec .wfe s = .next t ∧ WentOn s t (s.me.pc + 4) 1) ∧
    (s.me.wakes = false → ∃ t, exec .wfe s = .next t ∧ OnlyMe s t { s.me with run := .waiting, cycle := s.me.cycle + 1 })

/-- R25, R26, R28: a RUNNING sequencer with IE set, no instruction under way and an enabled cause pending takes the one of lowest CODE, with its TVAL, at the next instruction's
address; a fetch that R27 rows 1 to 3 forbid and a word that no instruction has trap at their pc. -/
def Obligations.InterruptAndFetchTraps : Prop :=
  (∀ (s : State) (code : Nat) (v : Word), s.me.run = .running → s.me.wait = none → bit s.me.status 2 = true → code < 4 →
    s.me.causeEnabled code = true → s.me.causeVal code = some v → (∀ k, k < code → s.me.causeEnabled k = false ∨ s.me.causeVal k = none) →
    ∃ t, exec .interruptEntry s = .next t ∧ OnlyMe s t (trapEntry code 0 v true s.me.pc s.me)) ∧
  (∀ (s : State) (code : Nat), fetchProblem s.me = some code →
    ∃ t, exec .fetchFault s = .next t ∧ Trapped s t code 0 s.me.pc) ∧
  (∀ s : State, fetchProblem s.me = none → decodeSeq (fetchWord s.me) = none →
    ∃ t, exec .illegalInstruction s = .next t ∧ Trapped s t 0x01 0 ((fetchWord s.me).zeroExtend 64)) ∧
  (∀ q : Seq, (0x40000 ≤ q.pc.toNat → fetchProblem q = some 0x0E) ∧
    (q.pc.toNat < 0x40000 → q.kernel = false → q.taskPage q.pc.toNat = false → fetchProblem q = some 0x06) ∧
    (q.pc.toNat < 0x40000 → (q.kernel = true ∨ q.taskPage q.pc.toNat = true) → q.pc.toNat / 8 ∈ q.memErr → fetchProblem q = some 0x12))

/-- R13, R22, R26, R50, R215, R442: what the outside world and time do to a sequencer: release to RUNNING at 0 with STATUS at its reset value once GO has been
given, stop to HALTED with the stop address (a stop asked for while an instruction of class P waited lands at the boundary behind it: here
of every plain instruction of R36), a mailbox message, the wake of a WFE that waits, CYCLE reaching TCMP in a cycle
in which nothing issues and a write of CMNSCR. Where it goes beyond the rules' words it rests on the model's choices in log entry 10. -/
def Obligations.SequencerEvents : Prop :=
  (∀ (s : State), s.arg.c < 576 →
    let c := s.arg.c
    let q := s.seqOf c
    (s.dev.goDone = true → s.dev.boot = 0 → (q.run = .held ∨ q.run = .halted) → ∃ t, exec .sequencerRelease s = .next t ∧
      OnlySeq s t c { q with run := .running, pc := 0, status := 1, wait := none, stopReq := false, loaded := 0 }) ∧
    (q.run = .running → q.wait = none → ∃ t, exec .sequencerStop s = .next t ∧ OnlySeq s t c { q with run := .halted, pcv := q.pc }) ∧
    (q.run = .waiting → ∃ t, exec .sequencerStop s = .next t ∧ OnlySeq s t c { q with run := .halted, pcv := q.pc }) ∧
    (q.run = .running → q.wait ≠ none → ∃ t, exec .sequencerStop s = .next t ∧ OnlySeq s t c { q with stopReq := true }) ∧
    (s.arg.k < 4 → ∃ t, exec .mailboxWrite s = .next t ∧ (∀ k, k < 4 → vget (t.seqOf c).mbox k 0 = if k = s.arg.k then s.arg.v else vget q.mbox k 0) ∧
      OnlySeq s t c { q with mbox := (t.seqOf c).mbox }) ∧
    (q.run = .waiting → q.wakes = true → q.stopReq = false → ∃ t, exec .wfeWake s = .next t ∧
      OnlySeq s t c { q.went (q.pc + 4) 2 with run := .running }) ∧
    ((q.run = .waiting ∨ q.run = .halted ∨ q.run = .running ∧ q.wait ≠ none) → q.cycle + 1 = q.tcmp →
      ∃ t, exec .timerCompare s = .next t ∧ OnlySeq s t c { q with cycle := q.tcmp }) ∧
    (field q.fqbase 0 6 ≤ 59 → ringScru s c ≤ 60 → memWf (s.clusterOf c).com = true → ∃ t new, exec .cmnscrWrite s = .next t ∧
      new.toNat = max (max (min (field s.arg.v 0 6) 60) (field q.fqbase 0 6 + 1)) (ringScru s c) ∧
      t.seqOf c = { q with cmnscr := new } ∧ (∀ k, k ≠ c → t.seqOf k = s.seqOf k ∧ t.clusterOf k = s.clusterOf k) ∧
      (∀ x, memByte (t.clusterOf c).com x =
        if (scrBytes q.cmnscr ≤ x ∧ x < scrBytes new) ∨ (scrBytes new ≤ x ∧ x < scrBytes q.cmnscr) then 0 else memByte (s.clusterOf c).com x) ∧
      { t with seqs := s.seqs, clusters := s.clusters } = s)) ∧
  (∀ (s : State) (d a b : BitVec 5) (i : Instr), i ∈ [.add d a b, .sub d a b, .and d a b, .or d a b, .xor d a b, Instr.andn d a b] →
    s.me.stopReq = true → s.me.run = .running →
    ∃ t, exec i s = .next t ∧ t.me.run = .halted ∧ t.me.stopReq = false ∧ t.me.pcv = s.me.pc + 4 ∧ t.me.pc = s.me.pc + 4 ∧
      (∀ r, r ≠ d → t.reg r = s.reg r) ∧ (∀ k, k ≠ s.cur → t.seqOf k = s.seqOf k) ∧ { t with seqs := s.seqs } = s)

/-! The element's operators (R60 to R64, R103 to R107, R143 to R209) -/

/-- R61, R63, R111, R149, R186: every operator of the element but EVWAIT (a statement of its own), in the slot that fires, starts a firing: it takes its operands
and holds its unit, and nothing else changes until it completes. Where it goes beyond the rules' words it rests on the model's choices in log entry 3. -/
def Obligations.EveryOperatorStartsItsFiring : Prop :=
  ∀ (s : State) (t : Site) (i : Instr) (f : ElemFields), i.elemFields = some f → f.opc ≠ 0x58 → FiresAt s i t →
    ∃ out len hold, 0 < len ∧ FiresAs s i t out len hold

/-- R336, R337, R447: a firing with a POISON operand, or one that reads data that cannot be corrected. An operator that the rules name a sink, or that writes SELF, faults with
POISON and the payload of its first POISON operand; any other emits every result that it would make of operands read as DATA of payload 0, on each destination that
it chooses, those that would be DATA, TILE or BOUND as POISON with that payload; and one that can form no result emits POISON on every destination that it names. A
firing without any does what its operator does (`soundOut`). Where it goes beyond the rules' words it rests on the model's choices in log entries 25, 32, 129. -/
def Obligations.PoisonedFirings : Prop :=
  ∀ (s : State) (t : Site) (i : Instr) (f : ElemFields), i.elemFields = some f → f.opc ≠ 0x58 → FiresAt s i t →
    let F := fireOf s t
    (∀ v, F.poisonPayload = some v → poisonSink F.w F.cfg = true → ∃ len hold, FiresAs s i t (.fault cPOISON v) len hold) ∧
    (∀ v, F.poisonPayload = some v → poisonSink F.w F.cfg = false →
      ∃ g len hold, soundOut i = some g ∧ FiresAs s i t (poisonedOut g F v) len hold ∧
        ∃ rs sw posts, poisonedOut g F v = .emit rs sw posts ∧
          ∀ r ∈ rs, r.tok.kind ≠ .data ∧ r.tok.kind ≠ .tile ∧ r.tok.kind ≠ .bound ∧ (r.tok.kind = .poison → r.tok.payload = v)) ∧
    (∀ g, F.poisonPayload = none → soundOut i = some g → ∃ len hold, FiresAs s i t (g F) len hold)

/-- R106, R107, R56: what a routed result carries. DROP sends nothing, SELF the result as it stands, a route the result after the tag action of the word. -/
def Obligations.TagActionsOnRoutes : Prop :=
  ∀ (F : Fire) (d : Nat) (r : Tok), d < 16 →
    let iw := ccwIW F.c.ccw
    let b := F.b.tok.payload
    (d = 15 → F.put d r = []) ∧ (d = 14 → F.put d r = [{ dest := d, tok := r }]) ∧
    (d < 14 → ∃ r', F.put d r = [{ dest := d, tok := r' }] ∧ r'.kind = r.kind ∧ r'.payload = r.payload ∧ r'.tile = r.tile ∧
      (wTA F.w = 0 → r' = r) ∧
      (iw < 16 → wTA F.w = 1 → r'.iter.toNat = r.iter.toNat / 2 ^ iw * 2 ^ iw + (r.iter.toNat + 1) % 2 ^ iw) ∧
      (iw < 16 → wTA F.w = 2 → r'.iter.toNat = (r.iter.toNat / 2 ^ iw + 1) % 2 ^ (16 - iw) * 2 ^ iw) ∧
      (iw < 16 → wTA F.w = 3 → r'.iter.toNat = r.iter.toNat / 2 ^ iw * 2 ^ iw) ∧
      (wTA F.w = 4 → r'.iter = 0) ∧ (wTA F.w = 5 → r'.iter.toNat = field b 0 16) ∧
      (wTA F.w = 6 → r'.spec.toNat = field (vget F.c.attr 15 0) (3 * F.k) 3) ∧ (wTA F.w = 7 → r'.spec = 0) ∧
      (wTA F.w = 8 → r.kind = .fin → r'.level.toNat = min (r.level.toNat + 1) 7) ∧
      (wTA F.w = 9 → r.kind = .fin → r'.level.toNat = r.level.toNat - 1) ∧
      (wTA F.w = 10 → r'.frame.toNat = field b 0 10 ∧ r'.gen.toNat = field b 10 2 ∧ r'.iter = 0) ∧
      (wTA F.w = 11 → r'.frame.toNat = field b 0 10 ∧ r'.gen.toNat = field b 10 2 ∧ r'.iter.toNat = field b 12 16))

/-- R151, R158, R159: routing, joining, constants, BOUND and ENDQ. -/
def Obligations.RoutingOperators : Prop :=
  ∀ (s : State) (t : Site) (i : Instr) (out : FireOut) (a b x y tt n : BitVec 4), FiresAt s i t → (fireOf s t).poisonPayload = none →
    let F := fireOf s t
    let A := F.pass F.a
    (i, out) ∈ [(.steer a b x y tt n, .emit (if F.b.tok.payload = 0 then F.put F.d1 A else F.put F.d0 A) none []),
      (.merge a b x y tt n, .emit (F.both (if F.a.fromMs then A else F.pass F.b)) none []),
      (.gate a b x y tt n, .emit (F.put F.d0 A ++ F.put F.d1 A) none []),
      (.join a b x y tt n, .emit (F.both (F.tok .data 0)) none []),
      (.copy a x y tt n, .emit (F.put F.d0 A ++ F.put F.d1 A) none []),
      (.sink a tt n, .emit [] none []),
      (.const a x y tt n, .emit (F.both (F.tok .data F.cfg)) none []),
      (.bound a x y tt n, .emit (F.both (F.tok .bound F.a.tok.payload)) none []),
      (Instr.endq a x y tt n, .emit (if F.a.tok.kind = .fin ∧ F.cfg.toNat % 8 ≤ F.a.tok.level.toNat then F.put F.d1 A else F.put F.d0 A) none [])] →
    FiresAs s i t out 1 1

/-- R152 to R157, R176, R92: loops, grants and counters: LCARRY, COLALLOC, COLRET, COUNT, COUNT2 and AGEN. A counter's start takes the trip counts of the latest BOUND
token that waits, or keeps those of its slot-state word. -/
def Obligations.LoopsAndCounters : Prop :=
  ∀ (s : State) (t : Site) (a b x y tt n : BitVec 4), (fireOf s t).poisonPayload = none →
    let F := fireOf s t
    let iw := ccwIW F.c.ccw
    let A := F.pass F.a
    let free := pMSG F.c.part * 128 - F.c.ms.length
    let carried := if bit F.cfg 0 then mkIter iw (outer iw A.iter + 1) 0 else mkIter iw (outer iw A.iter) (inner iw A.iter + 1)
    (FiresAt s (.lcarry a b x y tt n) t → (bit F.cfg 1 = false ∨ F.a.fromMs = true) →
      FiresAs s (.lcarry a b x y tt n) t (.emit (F.both { A with iter := carried }) none []) 1 1) ∧
    (FiresAt s (.lcarry a b x y tt n) t → bit F.cfg 1 = true → F.a.fromMs = false →
      FiresAs s (.lcarry a b x y tt n) t (.emit [] (some (lcarryCredit iw F.sw F.b.tok.payload)) []) 1 1) ∧
    (FiresAt s (.colalloc a x y tt n) t → 0 < field F.cfg 0 12 →
      FiresAs s (.colalloc a x y tt n) t (.emit (F.both (F.tok .data (creditWord 0
        (if free < field F.cfg 0 12 then 1 else min (field F.cfg 12 6) (free / field F.cfg 0 12)) (outer iw F.tag.iter)))) none []) 1 1) ∧
    (FiresAt s (.colret a x y tt n) t →
      FiresAs s (.colret a x y tt n) t (.emit (F.both (F.tok .data (creditWord (if bit F.cfg 0 then 2 else 1) 0 0))) none []) 1 1) ∧
    (FiresAt s (.count a b x n) t →
      let N := if bit F.sw 63 then field F.sw 32 31 else if F.b.fromMs then field F.b.tok.payload 32 31 else field F.sw 32 31
      let I := if bit F.sw 63 then field F.sw 0 32 else 0
      (I < N → FiresAs s (.count a b x n) t (.emit (F.put F.d0 (countItem F I)) (some (word (2 ^ 63 + N * 2 ^ 32 + (I + 1)))) []) 1 1) ∧
      (N ≤ I → FiresAs s (.count a b x n) t (.emit (F.put F.d0 (F.endTok 1 N)) (some (word (N * 2 ^ 32))) []) 1 1)) ∧
    (∀ (i : Instr) (item : Fire → Nat → Nat → Tok), (i, item) ∈ [(.count2 a b x n, count2Item), (Instr.agen a b x y n, agenItem)] →
      FiresAt s i t →
      let T := if bit F.sw 63 then field F.sw 32 31 else if F.b.fromMs then field F.b.tok.payload 32 31 else field F.sw 32 31
      let N1 := T / 2 ^ 16
      let N0 := T % 2 ^ 16
      let I := if bit F.sw 63 then field F.sw 0 16 else 0
      let J := if bit F.sw 63 then field F.sw 16 16 else 0
      ((N0 = 0 ∨ N1 = 0) → FiresAs s i t (.emit (F.put F.d0 (F.endTok 2 0)) (some (word (T * 2 ^ 32))) []) 1 1) ∧
      (N0 ≠ 0 → N1 ≠ 0 → I < N0 →
        FiresAs s i t (.emit (F.put F.d0 (item F I J)) (some (word (2 ^ 63 + T * 2 ^ 32 + J * 2 ^ 16 + (I + 1)))) []) 1 1) ∧
      (N0 ≠ 0 → N1 ≠ 0 → N0 ≤ I → J + 1 = N1 →
        FiresAs s i t (.emit (F.put F.d0 (F.endTok 2 N0)) (some (word (T * 2 ^ 32))) []) 1 1) ∧
      (N0 ≠ 0 → N1 ≠ 0 → N0 ≤ I → J + 1 < N1 →
        FiresAs s i t (.emit (F.put F.d0 (F.endTok 1 N0)) (some (word (2 ^ 63 + T * 2 ^ 32 + (J + 1) * 2 ^ 16))) []) 1 1))

/-- R160 to R162, R167: colours and frames: SPECT, COMMIT, KILL, LEXIT, PACK, UNPACK, FNEW and FRET. -/
def Obligations.SpeculationAndFrameOperators : Prop :=
  ∀ (s : State) (t : Site) (i : Instr) (out : FireOut) (a b x y tt n : BitVec 4), FiresAt s i t → (fireOf s t).poisonPayload = none →
    let F := fireOf s t
    let A := F.pass F.a
    let pa := F.a.tok.payload &&& 0x7F
    let pb := F.b.tok.payload
    let plain := fun (k : Kind) (v : Word) => { F.tok k v with spec := 0 }
    ((i, out) ∈ [
      (.commit a b x y n, .emit ((if pb = 0 then [] else F.put F.d0 (plain .commit pa)) ++ F.put F.d1 (plain .data pa)) none []),
      (.kill a x y n, .emit (F.both (plain .kill pa)) none []),
      (.pack a b x y tt n, .emit (F.both (F.tok .data ((F.a.tok.payload ||| pb) &&& 0x7F))) none []),
      (.unpack a x y tt n, .emit (F.put F.d0 (F.tok .data (pa &&& -pa)) ++ F.put F.d1 (F.tok .data (pa &&& ~~~(pa &&& -pa)))) none []),
      (.fnew a b x y n, .emit (F.put F.d0 { F.toFrame A (field pb 0 10) (field pb 10 2) with iter := 0 } ++
        F.put F.d1 { F.toFrame (F.tok .data (word (F.tag.iter.toNat * 2 ^ 12 + F.tag.gen.toNat * 2 ^ 10 + F.tag.frame.toNat)))
          (field pb 0 10) (field pb 10 2) with iter := 0 }) none []),
      (Instr.fret a b x n,
        .emit (F.put F.d0 { F.toFrame A (field pb 0 10) (field pb 10 2) with iter := BitVec.ofNat 16 (field pb 12 16) }) none [])] →
      FiresAs s i t out 1 1) ∧
    (i = .lexit a b x y tt n → pb ≠ 0 → FiresAs s i t (.emit [] none []) 1 1) ∧
    (i = .lexit a b x y tt n → pb = 0 →
      FiresAs s i t (.emit (F.put F.d0 { A with spec := 0, iter := mkIter (ccwIW F.c.ccw) (outer (ccwIW F.c.ccw) A.iter) 0 } ++
        F.putRaw F.d1 (plain .kill (F.cfg &&& 0x7F))) none []) 1 1) ∧
    (∀ k, i = .spect a b x y tt n → F.a.fromMs = true → k < 7 → bit F.cfg k = true → bit F.sw k = false →
      (∀ j, j < k → bit F.cfg j = false ∨ bit F.sw j = true) →
      FiresAs s i t (.emit (F.put F.d0 { A with spec := BitVec.ofNat 3 (k + 1) } ++ F.put F.d1 (plain .data (word (2 ^ k))))
        (some (setBit F.sw k true)) []) 1 1) ∧
    (i = .spect a b x y tt n → F.a.fromMs = true → ccwCXF F.c.ccw = true → (∀ k, k < 7 → bit F.cfg k = false ∨ bit F.sw k = true) →
      FiresAs s i t (.fault 0x11 F.cfg) 1 1) ∧
    (i = .spect a b x y tt n → F.a.fromMs = false → FiresAs s i t (.emit [] (some (F.sw &&& ~~~(pb &&& 0x7F))) []) 1 1)

/-- R168 to R171: events, traps and breakpoints, at the context's own event cluster: EVSET and EVWAIT pass A on, EVSET with its event operation, EVWAIT with CLR = 0 with its
phase turned and with CLR = 1 with the bit cleared as the firing starts. At a context away from its event cluster both send their operation, for which they create
an entry; EVWAIT with CLR = 0 turns its phase as it starts. TRAP faults on a nonzero B, BRKP at its count. -/
def Obligations.EventAndTrapOperators : Prop :=
  ∀ (s : State) (t : Site) (a b x y tt n : BitVec 4), (fireOf s t).poisonPayload = none →
    let F := fireOf s t
    let pass := F.both (F.pass F.a)
    (FiresAt s (.evset a x y tt n) t → F.c.evcl = clusterOfElem t.e →
      FiresAs s (.evset a x y tt n) t (.emit pass none [.event (field F.cfg 8 2) (field F.cfg 0 8)]) 1 1) ∧
    (FiresAt s (.evset a x y tt n) t → F.c.evcl ≠ clusterOfElem t.e →
      FiresAs s (.evset a x y tt n) t (.emit [] none [.entry (F.entry 0 none)]) 2 1) ∧
    (FiresAt s (.evwait a x y tt n) t → F.c.evcl = clusterOfElem t.e → bit F.cfg 8 = false →
      FiresAs s (.evwait a x y tt n) t (.emit pass (some (setBit F.sw 0 (!bit F.sw 0))) []) 1 1) ∧
    (FiresAt s (.evwait a x y tt n) t → F.c.evcl = clusterOfElem t.e → bit F.cfg 8 = true →
      ∃ u, exec (.evwait a x y tt n) s = .next u ∧
        (∀ k, k < 256 → eventBit u F.c.evcl k = (eventBit s F.c.evcl k && decide (k ≠ field F.cfg 0 8))) ∧
        Started { s with seqs := u.seqs } u t (.emit pass none []) 1 1) ∧
    (FiresAt s (.evwait a x y tt n) t → F.c.evcl ≠ clusterOfElem t.e → bit F.cfg 8 = true →
      FiresAs s (.evwait a x y tt n) t (.emit [] none [.entry (F.entry 0 none)]) 2 1) ∧
    (FiresAt s (.evwait a x y tt n) t → F.c.evcl ≠ clusterOfElem t.e → bit F.cfg 8 = false →
      ∃ u, exec (.evwait a x y tt n) s = .next u ∧ (u.ctxOf t.e t.x).sw = vset F.c.sw t.k (setBit F.sw 0 (!bit F.sw 0)) ∧
        Started s (u.updCtx t.e t.x (fun c => { c with sw := F.c.sw })) t (.emit [] none [.entry (F.entry 0 none)]) 2 1) ∧
    (FiresAt s (.trap a b x y tt n) t → F.b.tok.payload ≠ 0 → FiresAs s (.trap a b x y tt n) t (.fault 0x0B F.a.tok.payload) 1 1) ∧
    (FiresAt s (.trap a b x y tt n) t → F.b.tok.payload = 0 → FiresAs s (.trap a b x y tt n) t (.emit pass none []) 1 1) ∧
    (FiresAt s (.brkp a x y tt n) t → bit F.cfg 63 = true → field F.cfg 0 32 ≤ F.sw.toNat + 1 →
      FiresAs s (.brkp a x y tt n) t (.fault 0x0B F.sw) 1 1) ∧
    (FiresAt s (.brkp a x y tt n) t → (bit F.cfg 63 = false ∨ F.sw.toNat + 1 < field F.cfg 0 32) →
      FiresAs s (.brkp a x y tt n) t (.emit pass (some (F.sw + 1)) []) 1 1)

/-- R172, R149: the scalar operators that never fault: DATA results of both payloads on D0 and, as copy, on D1. Where it goes beyond the rules' words it rests on the model's choices in log entries 123, 124. -/
def Obligations.ScalarOperatorResults : Prop :=
  ∀ (s : State) (t : Site) (i : Instr) (v : Word) (len : Nat) (a b x y tt n : BitVec 4), FiresAt s i t → (fireOf s t).poisonPayload = none →
    let F := fireOf s t
    let A := F.a.tok.payload
    let B := F.b.tok.payload
    let m := B.toNat % 64
    (i, v, len) ∈ [(.iadd a b x y tt n, A + B, 1), (.isub a b x y tt n, A - B, 1), (.imul a b x y tt n, A * B, 3),
      (.imulh a b x y tt n, BitVec.ofInt 64 (A.toInt * B.toInt / 2 ^ 64), 3), (.elAnd a b x y tt n, A &&& B, 1), (.elOr a b x y tt n, A ||| B, 1),
      (.elXor a b x y tt n, A ^^^ B, 1), (.elAndn a b x y tt n, A &&& ~~~B, 1), (.elShl a b x y tt n, BitVec.ofNat 64 (A.toNat * 2 ^ m), 1),
      (.elShr a b x y tt n, BitVec.ofNat 64 (A.toNat / 2 ^ m), 1), (.elSar a b x y tt n, BitVec.ofInt 64 (A.toInt / 2 ^ m), 1),
      (.elRot a b x y tt n, BitVec.ofNat 64 (A.toNat * 2 ^ m) ||| BitVec.ofNat 64 (A.toNat / 2 ^ (64 - m)), 1),
      (.elMin a b x y tt n, BitVec.ofInt 64 (min A.toInt B.toInt), 1), (.elMax a b x y tt n, BitVec.ofInt 64 (max A.toInt B.toInt), 1),
      (.elMinu a b x y tt n, BitVec.ofNat 64 (min A.toNat B.toNat), 1), (.elMaxu a b x y tt n, BitVec.ofNat 64 (max A.toNat B.toNat), 1),
      (.sel a b x y tt n, if A = 0 then F.cfg else B, 1), (.elClz a x y tt n, aluClz A, 1), (.elPopc a x y tt n, aluPopc A, 1),
      (.cmp a b x y tt n, (match field F.cfg 0 3 with
        | 0 => if A = B then 1 else 0
        | 1 => if A = B then 0 else 1
        | 2 => if A.toInt < B.toInt then 1 else 0
        | 3 => if A.toInt < B.toInt then 0 else 1
        | 4 => if A.toNat < B.toNat then 1 else 0
        | 5 => if A.toNat < B.toNat then 0 else 1
        | _ => 0), 1),
      (.elBfx a x y tt n, if bit F.cfg 16 then bitExtractSigned A (field F.cfg 0 8) (field F.cfg 8 8)
        else bitExtract A (field F.cfg 0 8) (field F.cfg 8 8), 1),
      (Instr.elBfi a b x y tt n, bitInsert A B (field F.cfg 0 8) (field F.cfg 8 8), 1)] →
    FiresAs s i t (.emit (F.both (F.tok .data v)) none []) len 1

/-- R173 to R175, R177, R149: IDIV, IREM, ADDSAT, ABS, AINC and AIDX, with the faults that their settings ask for. -/
def Obligations.FaultingScalarOperators : Prop :=
  ∀ (s : State) (t : Site) (a b x y tt n : BitVec 4), (fireOf s t).poisonPayload = none →
    let F := fireOf s t
    let A := F.a.tok.payload
    let B := F.b.tok.payload
    let u := bit F.cfg 0
    let lowest := 0x8000000000000000#64
    let answer := fun (v : Word) => FireOut.emit (F.both (F.tok .data v)) none []
    (∀ i, i ∈ [.idiv a b x y tt n, Instr.irem a b x y tt n] → FiresAt s i t → bit F.cfg 1 = true → B = 0 → FiresAs s i t (.fault 0x03 0) 34 34) ∧
    (FiresAt s (.idiv a b x y tt n) t → B ≠ 0 → bit F.cfg 2 = true → u = false → A = lowest → B = BitVec.allOnes 64 →
      FiresAs s (.idiv a b x y tt n) t (.fault 0x04 A) 34 34) ∧
    (FiresAt s (.idiv a b x y tt n) t → (B = 0 → bit F.cfg 1 = false) → ¬(bit F.cfg 2 = true ∧ u = false ∧ A = lowest ∧ B = BitVec.allOnes 64) →
      FiresAs s (.idiv a b x y tt n) t (answer (if B = 0 then BitVec.allOnes 64 else if u then BitVec.ofNat 64 (A.toNat / B.toNat)
        else BitVec.ofInt 64 (A.toInt.tdiv B.toInt))) 34 34) ∧
    (FiresAt s (.irem a b x y tt n) t → (B = 0 → bit F.cfg 1 = false) →
      FiresAs s (.irem a b x y tt n) t (answer (if B = 0 then A else if u then BitVec.ofNat 64 (A.toNat % B.toNat)
        else BitVec.ofInt 64 (A.toInt.tmod B.toInt))) 34 34) ∧
    (FiresAt s (.addsat a b x y tt n) t →
      let z : Int := if u then (A.toNat : Int) + B.toNat else A.toInt + B.toInt
      let lo : Int := if u then 0 else -(2 ^ 63)
      let hi : Int := if u then 2 ^ 64 - 1 else 2 ^ 63 - 1
      (bit F.cfg 2 = true → (z < lo ∨ hi < z) → FiresAs s (.addsat a b x y tt n) t (.fault 0x04 A) 1 1) ∧
      ((bit F.cfg 2 = false ∨ lo ≤ z ∧ z ≤ hi) → FiresAs s (.addsat a b x y tt n) t (answer (BitVec.ofInt 64 (max lo (min hi z)))) 1 1)) ∧
    (FiresAt s (.abs a x y tt n) t → A ≠ lowest → FiresAs s (.abs a x y tt n) t (answer (BitVec.ofNat 64 A.toInt.natAbs)) 1 1) ∧
    (FiresAt s (.abs a x y tt n) t → A = lowest → bit F.cfg 2 = true → FiresAs s (.abs a x y tt n) t (.fault 0x04 A) 1 1) ∧
    (FiresAt s (.abs a x y tt n) t → A = lowest → bit F.cfg 2 = false → FiresAs s (.abs a x y tt n) t (answer 0x7FFFFFFFFFFFFFFF#64) 1 1) ∧
    (FiresAt s (.ainc a b x y tt n) t →
      FiresAs s (.ainc a b x y tt n) t (answer (word (streamOf A * 2 ^ 61 + ((vaOf A + B.toInt) % 2 ^ 58).toNat))) 1 1) ∧
    (FiresAt s (.aidx a b x y tt n) t → bit F.cfg 7 = true → field F.cfg 32 32 ≤ A.toNat → FiresAs s (.aidx a b x y tt n) t (.fault 0x0E A) 1 1) ∧
    (FiresAt s (.aidx a b x y tt n) t → (bit F.cfg 7 = false ∨ A.toNat < field F.cfg 32 32) →
      FiresAs s (.aidx a b x y tt n) t (answer (word (streamOf B * 2 ^ 61 +
        ((vaOf B + (if bit F.cfg 6 then A.toInt else A.toNat) * 2 ^ field F.cfg 0 6) % 2 ^ 58).toNat))) 1 1)

/-- R235, R241, R244 to R251, R294, R313, R414: a memory-port operator creates an entry at A's address (FENCE at none), with its operands and settings; LDT, and
MCST with a routed D1, keep a free tile slot for the result. -/
def Obligations.MemoryOperatorsCreateEntries : Prop :=
  ∀ (s : State) (t : Site) (i : Instr) (va : Nat) (res : Option Nat) (a b x y tt n : BitVec 4), FiresAt s i t → (fireOf s t).poisonPayload = none →
    let F := fireOf s t
    let A := F.a.tok.payload.toNat % 2 ^ 58
    let slot := (freeSlots F.el F.x F.c).head?
    (i, va, res) ∈ [(.ldt a b x y tt n, A, slot), (.stt a b x y tt n, A, none), (.lds a b x y tt n, A, none), (.sts a b x y tt n, A, none),
      (.atom a b x y tt n, A, none), (.atomr a b x y tt n, A, none), (.casr a b x y tt n, A, none), (.elFence a b x y tt n, 0, none),
      (.pref a b x y tt n, A, none), (.wbld a b x y tt n, A, none), (.sigop a b x y tt n, A, none), (.ringpop a b x y tt n, A, none),
      (.ringrel a b x y tt n, A, none), (Instr.mcst a b x y tt n, A, if F.d1 < 14 then slot else none)] →
    ∃ m : MemEntry, FiresAs s i t (.emit [] none [.entry m]) 2 1 ∧ m.x = t.x ∧ m.k = t.k ∧ m.wrd = F.w ∧ m.attr = F.cfg ∧ m.plid = F.c.plid ∧
      m.tag = F.tag ∧ m.opA = F.a ∧ m.opB = F.b ∧ m.va = va ∧ m.res = res ∧ m.st = .created ∧ m.dead = false

/-- R287 to R289, R422 to R424: CPY, CPYW and GQP send the tile as a command on D0's route when its shape and fields are sound, and fault when its shape is wrong. -/
def Obligations.CommandOperators : Prop :=
  ∀ (s : State) (t : Site) (a b x tt n : BitVec 4), (fireOf s t).poisonPayload = none →
    let F := fireOf s t
    let d := F.a.tok.payload
    let bs := F.a.tok.tile.getD []
    let g := guestCtxOf s (field (wordAt bs 0) 48 8)
    let sent := FireOut.emit (F.put F.d0 { F.pass F.a with cmd := some {
      win := Tab.getD F.c.wins F.tag.frame.toNat 0, elem := elemField F.e, cs := csField F.x F.k, iter := F.tag.iter.toNat, spec := F.tag.spec.toNat } })
      none []
    (∀ i, i ∈ [.cpy a b x tt n, .cpyw a b x tt n, Instr.gqp a b x tt n] → FiresAt s i t → commandTile d = false →
      FiresAs s i t (.fault 0x10 d) 2 1) ∧
    (FiresAt s (.cpy a b x tt n) t → commandTile d = true → (∀ k, k < 8 → badCopyWord F false bs k = false) →
      FiresAs s (.cpy a b x tt n) t sent 2 1) ∧
    (FiresAt s (.cpyw a b x tt n) t → commandTile d = true → (∀ k, k < 8 → badCopyWord F true bs k = false) → (wordAt bs 6).toNat % 8 = 0 →
      FiresAs s (.cpyw a b x tt n) t sent 2 1) ∧
    (FiresAt s (.gqp a b x tt n) t → commandTile d = true → (∀ k, k < 8 → badGuestWord F bs k = false) → g.v = true → g.plid = F.c.plid →
      s.guest.st = .active → FiresAs s (.gqp a b x tt n) t sent 2 1)

/-- R178, R183 to R185: two operands with a shape in common, at least one of them a tile, in the formats that the operator takes, no mask, and a shape that the
result's format can name. -/
def LanesMeet (F : Fire) (okA okB : Nat → Bool) (r c : Nat) : Prop :=
  vecShape F okA okB true = .ok (r, c) ∧ bit F.cfg 20 = true ∧ describable (vOF F.cfg) r c = true ∧
    (F.va.elems (vIF F.cfg) (r * c)).length = r * c ∧ (F.vb.elems (vIF F.cfg) (r * c)).length = r * c

/-- R187 to R193, R126 to R136: the operators that work lane by lane on two operands: unmasked, they give a tile of the common shape whose element i is the operator's
result of the elements i: rounded sums and products, fused multiply-add, minima and maxima, exact integers wrapped or clamped, conditions, selections, bits and shifts. Where it goes beyond the rules' words it rests on the model's choices in log entries 123, 124. -/
def Obligations.LaneOperatorsOfTwoOperands : Prop :=
  ∀ (s : State) (t : Site) (i : Instr) (f : Nat → Nat → Nat) (a b x y tt n : BitVec 4) (r c : Nat), FiresAt s i t → (fireOf s t).poisonPayload = none →
    let F := fireOf s t
    let ifm := vIF F.cfg
    let w := fmtBits ifm
    let rm := vRM F.cfg
    let dec := decodeFp F.fp
    let int := intVal ifm
    let fit := fun (z : Int) => if bit F.cfg 0 then intEnc ifm (max (intLow ifm) (min (intHigh ifm) z)) else intEnc ifm z
    (i, f) ∈ [(.vadd a b x y tt n, fun p q => arith F.fp rm (numAdd rm (dec p) (dec q))),
      (.vsub a b x y tt n, fun p q => arith F.fp rm (numAdd rm (dec p) (numNeg (dec q)))),
      (.vmul a b x y tt n, fun p q => arith F.fp rm (numMul (dec p) (dec q))),
      (.vfma a b x y tt n, fun p q => arith F.fp rm (if bit F.cfg 0 then numAdd rm (numMul (dec p) (decodeFp fp32 (vK F.cfg))) (dec q)
        else numAdd rm (numMul (dec p) (dec q)) (decodeFp fp32 (vK F.cfg)))),
      (.vmin a b x y tt n, fun p q => if (dec p).isNan || (dec q).isNan then F.fp.nan else if numLt true (dec q) (dec p) then q else p),
      (.vmax a b x y tt n, fun p q => if (dec p).isNan || (dec q).isNan then F.fp.nan else if numLt true (dec p) (dec q) then q else p),
      (.viadd a b x y tt n, fun p q => fit (int p + int q)), (.visub a b x y tt n, fun p q => fit (int p - int q)),
      (.vimul a b x y tt n, fun p q => fit (int p * int q)),
      (.vimin a b x y tt n, fun p q => if int q < int p then q else p), (.vimax a b x y tt n, fun p q => if int p < int q then q else p),
      (.vcmp a b x y tt n, fun p q => if vcmpHolds (field F.cfg 0 3) (valueOf ifm p) (valueOf ifm q) then 1 else 0),
      (.vand a b x y tt n, fun p q => p &&& q), (.vor a b x y tt n, fun p q => p ||| q), (.vxor a b x y tt n, fun p q => p ^^^ q),
      (.vshl a b x y tt n, fun p q => if w ≤ q then 0 else p * 2 ^ q % 2 ^ w), (.vshr a b x y tt n, fun p q => if w ≤ q then 0 else p / 2 ^ q),
      (.vsar a b x y tt n, fun p q => intEnc ifm (signed w p / 2 ^ min q w)), (.vclamp a b x y tt n, laneClamp F)] →
    LanesMeet F (· == ifm) (· == ifm) r c →
    ∃ len hold, FiresAs s i t (.emit (F.both (F.tileTok 0 (vOF F.cfg) r c (resultMslot F)
      (List.zipWith f (F.va.elems ifm (r * c)) (F.vb.elems ifm (r * c))))) none []) len hold

/-- R183, R187: a tile operator whose operands have shapes or formats that it does not take faults with TILE_SHAPE and the descriptor at fault; VSEL takes its condition
from a tile of integers. Where it goes beyond the rules' words it rests on the model's choices in log entry 26. -/
def Obligations.TileShapeFaults : Prop :=
  ∀ (s : State) (t : Site) (i : Instr) (a b x y tt n : BitVec 4) (d : Word), FiresAt s i t → (fireOf s t).poisonPayload = none →
    let F := fireOf s t
    let ok := fun (f : Nat) => f == vIF F.cfg
    (i ∈ [.vadd a b x y tt n, .vsub a b x y tt n, .vmul a b x y tt n, .vfma a b x y tt n, .vmin a b x y tt n, .vmax a b x y tt n,
        .viadd a b x y tt n, .visub a b x y tt n, .vimul a b x y tt n, .vimin a b x y tt n, .vimax a b x y tt n, .vcmp a b x y tt n,
        .vand a b x y tt n, .vor a b x y tt n, .vxor a b x y tt n, .vshl a b x y tt n, .vshr a b x y tt n, .vsar a b x y tt n,
        Instr.vclamp a b x y tt n] →
      vecShape F ok ok true = .error d → ∃ len hold, FiresAs s i t (.fault 0x10 d) len hold) ∧
    (i ∈ [.vabs a x y tt n, .vneg a x y tt n, .vcvt a x y tt n, .vexp2 a x y tt n, .vlog2 a x y tt n, .vrcp a x y tt n, .vrsq a x y tt n,
        .vsqrt a x y tt n, .vsinpi a x y tt n, .vcospi a x y tt n, .vtanh a x y tt n, .vrsum a x y tt n, .vrmax a x y tt n, .vscan a x y tt n,
        Instr.vtrans a x y tt n] →
      vecShape F ok (fun _ => true) false = .error d → ∃ len hold, FiresAs s i t (.fault 0x10 d) len hold) ∧
    (i = .vsel a b x y tt n → vecShape F fmtInt ok true = .error d → ∃ len hold, FiresAs s i t (.fault 0x10 d) len hold) ∧
    (∀ r c, i = .vsel a b x y tt n → LanesMeet F fmtInt ok r c → ∃ len hold, FiresAs s i t (.emit (F.both (F.tileTok 0 (vOF F.cfg) r c (resultMslot F)
      (List.zipWith (fun p q => if p = 0 then constK (vIF F.cfg) F.cfg else q) (F.va.elems (vIF F.cfg) (r * c)) (F.vb.elems (vIF F.cfg) (r * c)))))
      none []) len hold)

/-- R188, R194 to R198, R138: the operators of one tile, unmasked: signs, conversions, splits, special functions rounded once, reductions along an axis, scans,
transposes and zeros. -/
def Obligations.OneTileOperators : Prop :=
  ∀ (s : State) (t : Site) (i : Instr) (f : Nat → Nat) (a x y tt n : BitVec 4) (r c : Nat), FiresAt s i t → (fireOf s t).poisonPayload = none →
    let F := fireOf s t
    let ifm := vIF F.cfg
    let ofm := vOF F.cfg
    let v := F.va.elems ifm (r * c)
    let rows := chunksOf (r + 1) c v
    let fn := fun (g : FpNum → FpNum) (p : Nat) => arith ((fpFmt ofm).getD fp32) (vRM F.cfg) (g (decodeFp F.fp p))
    let tile := fun (rr cc : Nat) (es : List Nat) => FireOut.emit (F.both (F.tileTok 0 ofm rr cc (resultMslot F) es)) none []
    vecShape F (· == ifm) (fun _ => true) false = .ok (r, c) → bit F.cfg 20 = true → v.length = r * c →
    ((i, f) ∈ [(.vabs a x y tt n, fpSign false F), (.vneg a x y tt n, fpSign true F), (.vexp2 a x y tt n, fn fnExp2), (.vlog2 a x y tt n, fn fnLog2),
        (.vrcp a x y tt n, fn fnRcp), (.vrsq a x y tt n, fn fnRsq), (.vsqrt a x y tt n, fn fnSqrt), (.vsinpi a x y tt n, fn fnSinpi),
        (.vcospi a x y tt n, fn fnCospi), (Instr.vtanh a x y tt n, fn fnTanh)] → describable ofm r c = true →
      ∃ len hold, FiresAs s i t (tile r c (v.map f)) len hold) ∧
    (i = .vcvt a x y tt n → describable ofm r c = true → ∃ len hold sat, FiresAs s i t (.emit
      (F.put F.d0 (F.tileTok 0 ofm r c (resultMslot F) (v.map (fun p => (convert ofm (vRM F.cfg) (valueOf ifm p)).1))) ++
        F.put F.d1 (F.tok .data (overflowWord sat))) none []) len hold) ∧
    (i = .vsplit a x y tt n → ifm = 0 → describable 1 r c = true → ∃ len hold, FiresAs s i t (.emit
      (F.put F.d0 (F.tileTok 0 1 r c (resultMslot F) (v.map splitHead)) ++ F.put F.d1 (F.tileTok 1 0 r c (resultMslot F) (v.map splitRest)))
      none []) len hold) ∧
    (∀ g, (i, g) ∈ [(.vrsum a x y tt n, reduceSum F), (Instr.vrmax a x y tt n, reduceMax F)] →
      (field F.cfg 0 2 = 0 → describable ofm r 1 = true → ∃ len hold, FiresAs s i t (tile r 1 (rows.map g)) len hold) ∧
      (field F.cfg 0 2 = 1 → describable ofm 1 c = true → ∃ len hold, FiresAs s i t (tile 1 c ((columnsOf c rows).map g)) len hold) ∧
      (field F.cfg 0 2 = 2 → ∃ len hold, FiresAs s i t (.emit (F.both (F.tok .data (scalarWord ofm (g v)))) none []) len hold)) ∧
    (i = .vscan a x y tt n → field F.cfg 0 2 = 2 → describable ofm r c = true → ∃ len hold, FiresAs s i t (tile r c (scanOf F v)) len hold) ∧
    (i = .vtrans a x y tt n → describable ofm c r = true → ∃ len hold, FiresAs s i t (tile c r ((columnsOf c rows).flatten)) len hold)

/-- R198 to R200: movement: VBCAST of a scalar, VZERO, VPERM, VEXTR and VINS of one element. -/
def Obligations.MovementOperators : Prop :=
  ∀ (s : State) (t : Site) (a b x y tt n : BitVec 4) (r c : Nat), (fireOf s t).poisonPayload = none →
    let F := fireOf s t
    let ifm := vIF F.cfg
    let ofm := vOF F.cfg
    let R := field F.cfg 38 6 + 1
    let C := (field F.cfg 32 6 + 1) * colMult ofm
    let v := F.va.elems ifm (r * c)
    let at0 := field F.cfg 32 13
    let tile := fun (rr cc : Nat) (es : List Nat) => FireOut.emit (F.both (F.tileTok 0 ofm rr cc (resultMslot F) es)) none []
    (FiresAt s (.vzero a x y tt n) t → describable ofm R C = true →
      ∃ len hold, FiresAs s (.vzero a x y tt n) t (tile R C (List.replicate (R * C) 0)) len hold) ∧
    (FiresAt s (.vbcast a x y tt n) t → field F.cfg 0 2 = 0 → describable ofm R C = true →
      ∃ len hold, FiresAs s (.vbcast a x y tt n) t (tile R C (List.replicate (R * C) (F.a.tok.payload.toNat % 2 ^ fmtBits ofm))) len hold) ∧
    (∀ v' ks rr cc, FiresAt s (.vperm a b x y tt n) t → F.va.isTile = true → F.vb.isTile = true → dFMT F.va.desc = ifm → fmtInt (dFMT F.vb.desc) = true →
      v' = F.va.elems ifm 0 → ks = F.vb.elems (dFMT F.vb.desc) 0 → rr = dRows F.vb.desc → cc = dCols F.vb.desc → describable ofm rr cc = true →
      ((∀ k ∈ ks, k < v'.length) ∨ bit F.cfg 0 = true →
        ∃ len hold, FiresAs s (.vperm a b x y tt n) t (tile rr cc (ks.map (fun k => v'.getD k 0))) len hold) ∧
      (∀ k, bit F.cfg 0 = false → k ∈ ks → v'.length ≤ k →
        ∃ k' len hold, FiresAs s (.vperm a b x y tt n) t (.fault 0x0E (word k')) len hold)) ∧
    (FiresAt s (.vextr a b x y tt n) t → field F.cfg 0 2 = 0 → vecShape F (· == ifm) (fun _ => true) false = .ok (r, c) →
      (F.b.tok.payload.toNat < r * c → ∃ len hold, FiresAs s (.vextr a b x y tt n) t (.emit (F.both { F.tok .data (scalarWord ofm
        (v.getD F.b.tok.payload.toNat 0)) with btag := BitVec.ofNat 21 (field F.cfg 32 21) }) none []) len hold) ∧
      (r * c ≤ F.b.tok.payload.toNat →
        ∃ len hold, FiresAs s (.vextr a b x y tt n) t (.fault 0x0E F.b.tok.payload) len hold)) ∧
    (FiresAt s (.vins a b x y tt n) t → field F.cfg 0 2 = 0 → vecShape F (· == ifm) (fun _ => true) false = .ok (r, c) →
      (at0 < r * c → ∃ len hold, FiresAs s (.vins a b x y tt n) t (tile r c (v.take at0 ++ [F.b.tok.payload.toNat % 2 ^ fmtBits ofm] ++
        v.drop (at0 + 1))) len hold) ∧
      (r * c ≤ at0 → ∃ len hold, FiresAs s (.vins a b x y tt n) t (.fault 0x0E (word at0)) len hold))

/-- R201 to R209, R186: the matrix operators land their accumulator's new lanes when they complete, with a DATA token that names the accumulator; ACCRD emits the lanes
as a tile. -/
def Obligations.MatrixOperators : Prop :=
  ∀ (s : State) (t : Site) (i : Instr) (lanes : List Nat) (len : Nat) (a b x y tt n : BitVec 4), FiresAt s i t → (fireOf s t).poisonPayload = none →
    let F := fireOf s t
    let A := F.a.tok
    let B := F.b.tok
    let R := dRows A.payload
    let C := dCols A.payload
    let old := accLanes F.c (mACC F.cfg)
    let ea := tileElems (dFMT A.payload) (A.tile.getD [])
    let eb := tileElems (dFMT B.payload) (B.tile.getD [])
    let cost := 8 + C / 32 * groupCost F.cfg
    let shapes := A.kind = .tile ∧ dFMT A.payload = mAF F.cfg ∧ R ≤ 32 ∧ C % 32 = 0
    let pair := shapes ∧ B.kind = .tile ∧ dFMT B.payload = mBF F.cfg ∧ dRows B.payload ≤ 32 ∧ dCols B.payload = C
    let one := List.replicate (C / 32) (numOne, numOne)
    ((i = .mma a b x y tt n ∧ pair ∧ len = cost ∧ lanes = mmaLanes F R (dRows B.payload) C (mBF F.cfg) ea eb one) ∨
      (i = .mmas a b x y tt n ∧ pair ∧ len = cost ∧ lanes = mmaLanes F R (dRows B.payload) C (mBF F.cfg) ea eb
        (List.zip ((F.scales.take (C / 32)).map scaleNum) ((F.scales.drop (C / 32)).map scaleNum))) ∨
      (i = .mmaw a b x y tt n ∧ shapes ∧ len = cost ∧ ∃ ws, weightRows F.c (mBF F.cfg) (field F.cfg 42 5 + 1) C B.payload.toNat = .ok ws ∧
        lanes = mmaLanes F R (field F.cfg 42 5 + 1) C 0x3 ea ws one) ∨
      (i = .accz a x y tt n ∧ len = 8 ∧ lanes = List.replicate 1024 0) ∨
      (i = .accld a x y tt n ∧ A.kind = .tile ∧ dFMT A.payload = accFmt F.cfg ∧ R ≤ 32 ∧ C ≤ 32 ∧
        len = 8 + ((A.tile.getD []).length + 255) / 256 ∧ lanes = accMerge F (tileAt A) (fun _ v => v)) ∨
      (i = .accadd a b x y tt n ∧ bit F.cfg 47 = true ∧ B.kind = .tile ∧ dFMT B.payload = accFmt F.cfg ∧ dRows B.payload ≤ 32 ∧ dCols B.payload ≤ 32 ∧
        len = 24 ∧ lanes = accMerge F (tileAt B) (accAdd F.cfg)) ∨
      (i = .accadd a b x y tt n ∧ bit F.cfg 47 = false ∧ len = 24 ∧
        lanes = accMerge F (fun p q => (accLanes F.c (field F.cfg 24 4))[32 * p + q]?) (accAdd F.cfg)) →
      FiresAs s i t (.emit (F.both (F.tok .data (word (mACC F.cfg)))) none
        [.pool ((pMSG F.c.part + pTSG F.c.part + mACC F.cfg) * 4096) (lanes.flatMap (leBytes 4))]) len len) ∧
    (i = .accrd a x y tt n → ∃ es sat, FiresAs s i t (.emit
      (F.put F.d0 (F.tileTok 0 (mOF F.cfg) (field F.cfg 37 5 + 1) (field F.cfg 32 5 + 1) 0xFF es) ++ F.put F.d1 (F.tok .data (overflowWord sat))) none
      (if bit F.cfg 48 then [.pool ((pMSG F.c.part + pTSG F.c.part + mACC F.cfg) * 4096) ((List.replicate 1024 0).flatMap (leBytes 4))] else [])) 24 24 ∧
      es.length = (field F.cfg 37 5 + 1) * (field F.cfg 32 5 + 1) ∧
      (∀ p q, p < field F.cfg 37 5 + 1 → q < field F.cfg 32 5 + 1 →
        es.getD (p * (field F.cfg 32 5 + 1) + q) 0 = (convert (mOF F.cfg) (mRM F.cfg) (valueOf (accFmt F.cfg) (old.getD (32 * p + q) 0))).1))

/-! The instructions of class P (R93 to R102, R254, R338 to R347, R371, R446) -/

/-- From `s` to `u` no sequencer changed, no byte of HBM, of the host's or guest's memory or of a commons, no device register, queue or ring. -/
def SameStores (s u : State) : Prop :=
  u.cur = s.cur ∧ u.seqs = s.seqs ∧ u.hbm = s.hbm ∧ u.hostMem = s.hostMem ∧ u.guestMem = s.guestMem ∧ u.dev = s.dev ∧ u.queues = s.queues ∧
    u.rings = s.rings ∧ ∀ c, (u.clusterOf c).com = (s.clusterOf c).com

/-- R95: the instruction completes: from the state `u`, which has its effect, g[d] takes the status word `v`, 12 cycles later. -/
def AnswersVia (i : Instr) (s : State) (d : BitVec 5) (v : Word) (u : State) : Prop :=
  ∃ t, exec i s = .next t ∧ Wrote u t d v (u.me.pc + 4) 12

/-- R95: the instruction waits in the state `u`, which has its effect so far. -/
def WaitsVia (i : Instr) (s : State) (w : SeqWait) (u : State) : Prop :=
  ∃ t, exec i s = .next t ∧ OnlyMe u t { u.me with wait := some w }

/-- R96, R101, R226, R253: the executing sequencer reads the bytes `bs` from `a`, no walk being needed any more, and goes on in `u`. -/
def SeqReads (s : State) (a n : Nat) (bs : List Byte) (u : State) : Prop :=
  walkForSeq (accessState s) a n = none ∧
    ∃ ls, readForSeq (accessState s) a n = .ok bs ls ∧ u = ls.foldl seqKeepLeaf (beatsPast (accessState s) (.seq s.cur))

/-- R80, R83, R85, R86, R94, R96, R97, R116, R223, R349: GLOAD places a sound image where Place finds room: at the lowest free PLID, each virtual plot's four contexts in a plot-context of
its own, holding the image's words and FILLING until they are written, the root recorded, and waits with status OK and the PLID. An instruction that waits so gives its
status in the first cycle in which no context of the placement is FILLING. GEVICT removes an empty placement: its PLID and its contexts are free again. Nothing else is
placed or released. The other answers, each of which changes nothing: of GLOAD, BADARG for a reserved option bit, REJECTED for a header or an image that fails its checks, and
NOPLACE, or the wait that option bit 0 asks for, where no placement and no move is left; of GEVICT, BADARG, NOPLID, and BUSY for a placement that is not empty, which it finds out once no
context of it moves, is saved or is being written. Where it goes beyond the rules' words it rests on the model's choices in log entries 18, 19, 21, 120, 121, 122. -/
def Obligations.PlacementInstructions : Prop :=
  ∀ (s : State) (d a b : BitVec 5), s.me.stopReq = false → s.me.kernel = true →
    (4 ≤ (s.reg b).toNat → AnswersVia (.gload d a b) s d 0x0700000000000000#64 s) ∧
    (∀ (h : List Byte) (s1 : State), (s.reg b).toNat < 4 → (s.reg a).toNat % 64 = 0 → SeqReads s (s.reg a).toNat 64 h s1 →
      (headerOk h = false → ∃ v, AnswersVia (.gload d a b) s d v s1 ∧ field v 56 8 = 1 ∧ field v 29 5 = 20) ∧
      ∀ (bs : List Byte) (s2 : State), headerOk h = true → SeqReads s1 (s.reg a).toNat (imSIZE h) bs s2 →
        (∀ r, imageFault bs = some r → AnswersVia (.gload d a b) s d (rejectStatus r) s2) ∧
        (imageFault bs = none → s2.pa = none → compactStep s2 bs (bit (s.reg b) 1) (gloadRoot s2.me) false (.seq s2.cur) = .none →
          (bit (s.reg b) 0 = false → AnswersVia (.gload d a b) s d 0x0214000000000000#64 s2) ∧
          (bit (s.reg b) 0 = true →
            WaitsVia (.gload d a b) s (.place d.toNat bs (bit (s.reg b) 1) true 2 s2.releases (issuedAt s2.me)) s2))) ∧
    (2 ^ 14 ≤ (s.reg a).toNat → AnswersVia (.gevict d a) s d 0x0700000000000000#64 s) ∧
    ((s.reg a).toNat < 2 ^ 14 → s.placeOf (s.reg a).toNat = none → AnswersVia (.gevict d a) s d 0x0300000000000000#64 s) ∧
    (∀ (pl : Placement), (s.reg a).toNat < 2 ^ 14 → s.placeOf (s.reg a).toNat = some pl →
      (pl.moving ≠ none ∨ pl.saving ≠ [] ∨ beingFilled s (s.reg a).toNat = true → WaitsVia (.gevict d a) s .again s) ∧
      (pl.moving = none → pl.saving = [] → beingFilled s (s.reg a).toNat = false →
        (∃ f ∈ pl.frames, f.2.st ≠ .free) ∨ placementEmpty s (s.reg a).toNat = false → AnswersVia (.gevict d a) s d 0x0400000000000000#64 s)) ∧
    (∀ (h bs : List Byte) (s1 s2 : State) (m : List (Nat × Nat)) (p : Nat),
      (s.reg b).toNat < 4 → (s.reg a).toNat % 64 = 0 → SeqReads s (s.reg a).toNat 64 h s1 → headerOk h = true →
      SeqReads s1 (s.reg a).toNat (imSIZE h) bs s2 → imageFault bs = none → s2.pa = none →
      placeImage s2 bs (bit (s.reg b) 1) = some m → p < 9216 → s2.placeOf p = none → (∀ q, q < p → s2.placeOf q ≠ none) →
      ∃ u pl, WaitsVia (.gload d a b) s (.filling d.toNat p (BitVec.ofNat 64 p)) u ∧ SameStores s2 u ∧
        u.placeOf p = some pl ∧ pl.n = imN bs ∧ pl.entries = imEntries bs ∧ pl.map = m.map some ∧ pl.frames = [] ∧
        pl.root = (if s2.me.xe then some (seqRoot s2.me) else none) ∧ (∀ q, q ≠ p → u.placeOf q = s2.placeOf q) ∧
        (∀ v pc e, m[v]? = some pc → e < 4 → let c := u.ctxOf (4 * pc.1 + e) pc.2
          c.st = .filling ∧ c.plid = p ∧ c.vp = v ∧ c.el = e ∧ c.ms = [] ∧ (∀ k, k < 16 → vget c.words k vacant = rcWord (imRecord bs (4 * v + e)) k))) ∧
    (∀ (n p : Nat) (v : Word) (s0 : State), s.cur < 576 → pickMove s = some (s0, .seq s.cur) → s0.me.run = .running →
      s0.me.wait = some (.filling n p v) → s0.me.stopReq = false → beingFilled s0 p = false →
      ∃ t, step s = quietAfter s0 (.seq s.cur) (.next t) ∧ Wrote s0 t (BitVec.ofNat 5 n) v (s0.me.pc + 4) 12) ∧
    (∀ (pl : Placement), let p := (s.reg a).toNat
      p < 2 ^ 14 → s.placeOf p = some pl → pl.moving = none → pl.saving = [] → beingFilled s p = false → (∀ f, (s.frameOf p f).st = .free) →
      (∀ f ∈ pl.frames, f.2.st = .free) → placementEmpty s p = true →
      ∃ u, AnswersVia (.gevict d a) s d 0 u ∧ SameStores s u ∧ u.placeOf p = none ∧ (∀ q, q ≠ p → u.placeOf q = s.placeOf q) ∧
        (∀ pc e, some pc ∈ pl.map → e < 4 → (u.ctxOf (4 * pc.1 + e) pc.2).st = .free) ∧
        (∀ e x, some (e / 4, x) ∉ pl.map → u.ctxOf e x = s.ctxOf e x))

/-- R90, R91, R98 to R101, R371: FALLOC opens the lowest frame that is FREE with no token of its next generation, of the issuing cluster, with the
hold set; FFREE frees a COMPLETE frame, or an OPEN one with nothing but its hold; FKILL begins to kill a frame that is OPEN, RUNNING or DEADLOCKED and waits for the end of its
GEN bump; TINJ injects one token and, asked to, releases the hold. Other frames and placements stay as they are. Where it goes beyond the rules' words it rests on the model's choices in log entries 15, 21. -/
def Obligations.FrameInstructions : Prop :=
  ∀ (s : State) (d a b c : BitVec 5), s.me.stopReq = false → s.me.kernel = true →
    let A := s.reg a
    let p := A.toNat % 2 ^ 14
    let others := fun (u : State) (f : Nat) =>
      (∀ f', f' ≠ f → u.frameOf p f' = s.frameOf p f') ∧ (∀ q, q ≠ p → u.placeOf q = s.placeOf q)
    (∀ (pl : Placement) (f : Nat), let csp := field A 16 7
      A &&& ~~~0x1FF7F3FFF#64 = 0 → csp ≤ 64 → regionOk s (s.reg b) (s.reg c) = true → s.placeOf p = some pl → f < 1024 →
      (s.frameOf p f).st = .free → custodySum s p f ((s.frameOf p f).gen + 1) = 0 →
      (∀ f', f' < f → (s.frameOf p f').st ≠ .free ∨ custodySum s p f' ((s.frameOf p f').gen + 1) ≠ 0) →
      (∀ k ∈ placeClusters pl, csp ≤ pagesFree s k) →
      ∃ u, let g := (s.frameOf p f).gen + 1
        AnswersVia (.falloc d a b c) s d (BitVec.ofNat 64 (g.toNat * 1024 + f)) u ∧ SameStores s u ∧ others u f ∧
          (u.frameOf p f).st = .opened ∧ (u.frameOf p f).gen = g ∧ (u.frameOf p f).home = s.cur ∧ (u.frameOf p f).hold = true ∧
          (u.frameOf p f).even = bit A 32 ∧ (u.frameOf p f).evb = field A 24 8 ∧ (u.frameOf p f).log = logOff ∧ (u.frameOf p f).launch = none) ∧
    (∀ (f : Nat), f = A.toNat / 2 ^ 14 → f < 1024 → s.placeOf p ≠ none →
      ((s.frameOf p f).st = .complete ∨ (s.frameOf p f).st = .opened ∧ onlyHold s p f = true) →
      ∃ u, AnswersVia (.ffree d a) s d 0 u ∧ SameStores s u ∧ others u f ∧ (u.frameOf p f).st = .free ∧
        (u.frameOf p f).gen = (s.frameOf p f).gen ∧ (u.frameOf p f).hold = false ∧ (u.frameOf p f).log = logOff) ∧
    (∀ (f : Nat) (pl : Placement), f = A.toNat / 2 ^ 14 → f < 1024 → s.placeOf p = some pl → pl.moving = none →
      (s.frameOf p f).st ∈ [FrameSt.opened, .running, .deadlocked] →
      ∃ u, WaitsVia (.fkill d a) s (.bump d.toNat p f) u ∧ SameStores s u ∧ others u f ∧ (u.frameOf p f).st = .killing ∧
        (u.frameOf p f).bump = some .kill ∧ (u.frameOf p f).hold = false ∧ (u.frameOf p f).log = { logOff with exempt := exempted (s.frameOf p f).log } ∧
        (u.frameOf p f).gen = (s.frameOf p f).gen) ∧
    (∀ (pl : Placement) (w : Word) (s1 u : State) (tile : Option (List Byte)), let B := s.reg b
      let n := field A 24 6
      let f := field A 14 10
      tinjArgsOk A B = true →
      ((field A 31 3 ≠ 1 ∧ s1 = s ∧ tile = none) ∨
        (field A 31 3 = 1 ∧ (s.reg c).toNat % 64 = 0 ∧
          ∃ bs, tile = some bs ∧ SeqReads s (s.reg c).toNat (shapeBytes (dFMT B) (dRows B) (dCols B)) bs s1)) →
      s.placeOf p = some pl → pl.entries[n]? = some w → (s.frameOf p f).st = .opened →
      inject s1 p (entVelem w) (chanEntry n) (tinjToken s1 p f A B (entPORT w) tile) = .taken u →
      (bit A 30 = false → AnswersVia (.tinj d a b c) s d 0 u) ∧
      (bit A 30 = true → ∃ u', AnswersVia (.tinj d a b c) s d 0 u' ∧ (u'.frameOf p f).hold = false ∧
        ((u.frameOf p f).st = .opened → (u'.frameOf p f).st = .running) ∧ u'.elems = u.elems ∧ u'.seqs = u.seqs))

/-- R102, R223, R324, R350, R375: CENSUS reads counters and parts of the fabric and changes nothing else: class S where the item names no cluster or its own, else
class P; an item or a cluster that does not exist traps with BOUNDS. The item is g[b][7:0], whatever stands above it (log 22). Where it goes beyond the rules' words it rests on the model's choices in log entries 22, 68. -/
def Obligations.CensusReadsTheFabric : Prop :=
  ∀ (s : State) (d a b : BitVec 5), s.me.stopReq = false → s.me.kernel = true →
    let A := s.reg a
    let B := s.reg b
    let p := A.toNat % 2 ^ 14
    let f := field A 14 10
    let cl := field A 31 3 * 96 + field A 24 7
    let e := cl * 16 + field A 34 4
    let x := field A 38 2
    let item := B.toNat % 256
    let inCluster := item = 1 ∨ 4 ≤ item ∧ item ≤ 0xA ∨ item = 0xD ∨ item = 0xE
    let fr := s.frameOf p f
    ((inCluster → field A 31 3 < 6 ∧ field A 24 7 < 96) →
      (∀ (pl : Placement) (v : Word), s.placeOf p = some pl →
      (item, v) ∈ [(0, BitVec.ofNat 64 (frameStCode fr.st * 2 ^ 61 + fr.gen.toNat * 2 ^ 59 + (fr.home / 96 * 2 ^ 7 + fr.home % 96) * 2 ^ 49 + fr.even.toNat * 2 ^ 48 +
          fr.evb * 2 ^ 40 + fr.lastSum % 2 ^ 32)),
        (1, BitVec.ofNat 64 (custody s cl p f (s.frameOf p f).gen)),
        (2, BitVec.ofNat 64 ((if pl.moving.isSome then 2 else 1) * 2 ^ 62 + pl.n * 2 ^ 50 + (liveFrames pl).length * 2 ^ 39)),
        (3, BitVec.ofNat 64 (match pl.map.getD (field A 24 12) none with
          | some pc => 2 ^ 63 + 4 * pc.1 + pc.2
          | none => 0)),
        (4, (s.ctxOf e x).ccw), (5, (s.ctxOf e x).part), (6, (s.ctxOf e x).spillcnt), (7, (s.ctxOf e x).throtcnt.zeroExtend 64),
        (8, (s.clusterOf cl).stalecnt), (9, (s.clusterOf cl).straycnt), (0xA, BitVec.ofNat 64 (freeGranules s e)),
        (0xB, match pl.root with
          | some r => BitVec.ofNat 64 (2 ^ 63 + r.2)
          | none => 0),
        (0xC, match pl.root with
          | some r => r.1
          | none => 0),
        (0xD, (s.clusterOf cl).poisoncnt), (0xE, BitVec.ofNat 64 ((s.clusterOf cl).dir.countP (fun q => q.fseq.isSome && q.settle.isNone))),
        (0x10, BitVec.ofNat 64 (fr.log.mode * 2 ^ 62 + fr.paused.toNat * 2 ^ 61 + fr.log.cut.isSome.toNat * 2 ^ 60 + highestWindow s p f * 2 ^ 32 +
          lastComplete fr.log * 2 ^ 16 + fr.log.floor)),
        (0x11, BitVec.ofNat 64 (s.frameOf p f).log.head), (0x12, BitVec.ofNat 64 (s.frameOf p f).log.tail)] →
      ∃ t, exec (.census d a b) s = .next t ∧ Wrote s t d v (s.me.pc + 4) (if inCluster ∧ cl ≠ s.cur then 12 else 1)) ∧
      (∀ pl, s.placeOf p = some pl → item = 0xF →
      ∃ t v, exec (.census d a b) s = .next t ∧ Wrote s t d v (s.me.pc + 4) 1 ∧
        (pl.n ≤ field A 24 12 → v = 0) ∧
        (∀ pc, field A 24 12 < pl.n → pl.map.getD (field A 24 12) none = some pc →
          let st := (s.ctxOf (4 * pc.1) pc.2).st
          field v 62 2 = (if st = .draining ∨ st = .filling then 3 else 1) ∧ field v 60 2 = ctxStCode st) ∧
        (field A 24 12 < pl.n → pl.map.getD (field A 24 12) none = none →
          field v 62 2 = if (∃ w ∈ pl.saved, w.vp = field A 24 12 ∧ w.filling.isSome = true) then 3 else 2)) ∧
      (s.placeOf p = none → item ∈ [0, 1, 2, 3, 0xB, 0xC, 0xF] →
      ∃ t, exec (.census d a b) s = .next t ∧ Wrote s t d 0 (s.me.pc + 4) (if inCluster ∧ cl ≠ s.cur then 12 else 1))) ∧
    (0x12 < item → ∃ t, exec (.census d a b) s = .next t ∧ Trapped s t 0x0E 0 B) ∧
    (inCluster → (6 ≤ field A 31 3 ∨ 96 ≤ field A 24 7) → ∃ t, exec (.census d a b) s = .next t ∧ Trapped s t 0x0E 0 A)

/-- R328, R329, R147: the handler's answers to a pending fault of its cluster's queue that SEQ names: FRES gives D0 and D1 their DATA results, FDISC gives none, and
the settlement then takes effect in its turn; FRETRY removes the fault, and its operands wait again. Status OK; NOFAULT for a number that names no fault. Where it goes beyond the rules' words it rests on the model's choices in log entry 69. -/
def Obligations.FaultSettlingInstructions : Prop :=
  ∀ (s : State) (d a b c : BitVec 5), s.me.stopReq = false → s.me.kernel = true →
    let A := s.reg a
    let others := fun (u : State) (id : Nat) => ∀ q : Pending, q.id ≠ id → (q ∈ (u.clusterOf s.cur).dir ↔ q ∈ (s.clusterOf s.cur).dir)
    (∀ (p : Pending) (e x : Nat), pendingOf s s.cur (field A 0 62) = some p → faultHome s p = some (e, x) →
      let w := vget (s.ctxOf e x).words p.k vacant
      (tileFault s p e x = false → ∃ u, AnswersVia (.fres d a b c) s d 0 u ∧ SameStores s u ∧ u.elems = s.elems ∧ others u p.id ∧
        ∃ q ∈ (u.clusterOf s.cur).dir, q.id = p.id ∧ ∃ rs sw, q.settle = some (rs, sw) ∧
          rs.map (fun r => (r.dest, r.tok.kind, r.tok.payload)) =
            (if bit A 63 = true ∧ wD0 w < 14 then [(wD0 w, .data, s.reg b)] else []) ++
              (if bit A 62 = true ∧ wD1 w < 14 then [(wD1 w, Kind.data, s.reg c)] else []) ∧
          (bit A 62 = true → wD1 w = 14 → sw = some (s.reg c)) ∧ (bit A 63 = true → wD0 w = 14 → wD1 w ≠ 14 → sw = some (s.reg b))) ∧
      (A.toNat < 2 ^ 62 → ∃ u, AnswersVia (.fdisc d a) s d 0 u ∧ SameStores s u ∧ u.elems = s.elems ∧ others u p.id ∧
        ∃ q ∈ (u.clusterOf s.cur).dir, q.id = p.id ∧ ∃ sw, q.settle = some ([], sw)) ∧
      (A.toNat < 2 ^ 62 → ∃ u, AnswersVia (.fretry d a) s d 0 u ∧ SameStores s u ∧ others u p.id ∧
        (∀ q ∈ (u.clusterOf s.cur).dir, q.id ≠ p.id) ∧
        (u.ctxOf e x).ms = (s.ctxOf e x).ms.map (fun m => if faultEntry p.id m then { m with st := .idle } else m) ∧
        (∀ e' x', (e', x') ≠ (e, x) → u.ctxOf e' x' = s.ctxOf e' x'))) ∧
    (A.toNat < 2 ^ 62 → pendingOf s s.cur A.toNat = none →
      AnswersVia (.fres d a b c) s d 0x0900000000000000#64 s ∧ AnswersVia (.fdisc d a) s d 0x0900000000000000#64 s ∧
        AnswersVia (.fretry d a) s d 0x0900000000000000#64 s)

/-- R338, R341, R344, R349: CPRIO sends a priority to every context of a placement and completes when all live ones have landed it; CSAVE of a resident plot with a root
pauses its four contexts and waits, and once they have drained frees them and keeps their image; CRSTR of a saved plot takes its granules, where the image is then
written, and waits with status OK until it stands there (PlacementInstructions says how that wait ends); NOPLACE where it does not fit. Where it goes beyond the rules' words it rests on the model's choices in log entries 69, 115. -/
def Obligations.ContextInstructions : Prop :=
  ∀ (s : State) (d a b c : BitVec 5), s.me.stopReq = false → s.me.kernel = true →
    let A := s.reg a
    let p := A.toNat % 2 ^ 14
    let v := field A 14 12
    (A.toNat < 2 ^ 14 → (s.reg b).toNat < 8 → s.placeOf p ≠ none →
      ∃ u, SameStores s u ∧ (∃ pl, u.placeOf p = some pl ∧ pl.prio = some (s.reg b).toNat) ∧
        (∀ e x, u.ctxOf e x = if (s.ctxOf e x).plid = p ∧ (s.ctxOf e x).st ≠ .free then { s.ctxOf e x with newPrio := some (s.reg b).toNat }
          else s.ctxOf e x) ∧
        (prioDue u p = false → AnswersVia (.cprio d a b) s d 0 u) ∧ (prioDue u p = true → WaitsVia (.cprio d a b) s (.prio d.toNat p) u)) ∧
    (∀ (pl : Placement) (pc : Nat × Nat), A.toNat < 2 ^ 26 → s.placeOf p = some pl → v < pl.n → (s.reg b).toNat % 64 = 0 →
      hbmRange s (s.reg b).toNat (s.reg c).toNat = true → pl.map.getD v none = some pc → pc.2 < 4 →
      ((∀ w ∈ pl.saving, w.1 ≠ v) → pl.moving = none → pl.root ≠ none → (∀ f ∈ pl.frames, f.2.st ≠ .rolling) →
        (s.ctxOf (4 * pc.1) pc.2).st ≠ .filling →
        ∃ u, WaitsVia (.csave d a b c) s .again u ∧ SameStores s u ∧
          (∃ pl', u.placeOf p = some pl' ∧ pl'.saving = pl.saving ++ [(v, some s.cur)]) ∧
          ∀ e x, u.ctxOf e x = if e / 4 = pc.1 ∧ x = pc.2 then { s.ctxOf e x with st := .draining } else s.ctxOf e x) ∧
      (∀ (u : State) (n : Nat), (v, some s.cur) ∈ pl.saving → saveReady s pc = true →
        finishSave s p v pc (s.reg b).toNat (s.reg c).toNat none = .ok u n →
        AnswersVia (.csave d a b c) s d (BitVec.ofNat 64 (n % 2 ^ 64)) u ∧ n ≤ (s.reg c).toNat ∧ u.seqs = s.seqs ∧
          (∀ e, e < 4 → (u.ctxOf (4 * pc.1 + e) pc.2).st = .free) ∧
          (∃ pl', u.placeOf p = some pl' ∧ pl'.map = setAt pl.map v none ∧
            ∃ w ∈ pl'.saved, w.vp = v ∧ w.addr = (s.reg b).toNat ∧ w.size = n) ∧
          (∀ y, y / 128 < (s.reg b).toNat / 128 ∨ ((s.reg b).toNat + n - 1) / 128 < y / 128 → memByte u.hbm y = memByte s.hbm y))) ∧
    (∀ (pl : Placement) (w : Saved), let named := if bit (s.reg c) 63 then none else some (field (s.reg c) 2 12, field (s.reg c) 0 2)
      A.toNat < 2 ^ 26 → field (s.reg c) 14 49 = 0 → (s.reg b).toNat % 64 = 0 → hbmRange s (s.reg b).toNat 2048 = true →
      s.placeOf p = some pl → pl.saved.find? (fun q => q.vp == v) = some w → s.pa = none → w.filling = none →
      (∀ u, tryRestore s p pl w (s.reg b).toNat named = .ok u → WaitsVia (.crstr d a b c) s (.filling d.toNat p 0) u ∧ SameStores s u ∧
        ∃ pc, restoreAt s pl v named = some pc ∧ (pc.2 < 4 → ∀ e, e < 4 → let k := u.ctxOf (4 * pc.1 + e) pc.2
          k.st = .filling ∧ k.plid = p ∧ k.vp = v ∧ k.el = e)) ∧
      (tryRestore s p pl w (s.reg b).toNat named = .noPlace → AnswersVia (.crstr d a b c) s d 0x0200000000000000#64 s))

/-- R360, R364, R367 to R371: the recorder's instructions on a frame of a placement. WMARK begins a cut and answers the new window; WRETIRE moves HEAD and answers the bytes
retired; RWIN begins the rollback to a complete window; RSTEP undoes the newest entries, none of them IRREVOCABLE or of a retired window, each once; FSTEP pauses, resumes or gives a context a budget of firings, and answers how many it has done when the step is over; WCFG stops or starts
the log or moves its ring. Where it goes beyond the rules' words it rests on the model's choices in log entries 62, 69. -/
def Obligations.RecorderInstructions : Prop :=
  ∀ (s : State) (d a b c : BitVec 5) (pl : Placement), s.me.stopReq = false → s.me.kernel = true →
    let A := s.reg a
    let B := s.reg b
    let p := A.toNat % 2 ^ 14
    let f := field A 14 10
    let fr := s.frameOf p f
    let g := fr.log
    let others := fun (u : State) =>
      (∀ f', f' ≠ f → u.frameOf p f' = s.frameOf p f') ∧ (∀ q, q ≠ p → u.placeOf q = s.placeOf q)
    s.placeOf p = some pl → fr.st ∈ [FrameSt.opened, .running, .deadlocked, .complete] →
    (A.toNat < 2 ^ 24 → B.toNat < 2 ^ 9 → g.mode ≠ 0 → (fr.st = .opened ∨ fr.st = .running) → g.cut = none → g.win < 65535 →
      markersEnter s p f = true →
      ∃ u, AnswersVia (.wmark d a b) s d (BitVec.ofNat 64 (g.win + 1)) u ∧ SameStores s u ∧ (u.frameOf p f).log.win = g.win + 1 ∧
        (u.frameOf p f).log.cut = some g.win ∧ (u.frameOf p f).log.drained = [] ∧ (u.frameOf p f).log.head = g.head ∧
        (u.frameOf p f).log.tail = g.tail ∧ (u.frameOf p f).log.cutEvent = (if bit B 8 then some (s.cur, field B 0 8) else none)) ∧
    (A.toNat < 2 ^ 24 → B.toNat ≤ 2 ^ 16 → g.mode ≠ 0 → (B.toNat < 2 ^ 16 → windowComplete g B.toNat = true ∧ g.floor ≤ B.toNat) →
      ∃ u head, AnswersVia (.wretire d a b) s d (BitVec.ofNat 64 ((head - g.head) % 2 ^ 64)) u ∧ SameStores s u ∧ others u ∧
        u.elems = s.elems ∧ (u.frameOf p f).log.head = head ∧ (u.frameOf p f).log.tail = g.tail ∧ (u.frameOf p f).log.cut = g.cut ∧
        (B.toNat = 2 ^ 16 → head = g.tail) ∧
        (B.toNat < 2 ^ 16 → (u.frameOf p f).log.floor = B.toNat ∧
          head = (((logEntries s g).find? (fun l => decide (B.toNat < l.2.win))).map (·.1)).getD g.tail)) ∧
    (A.toNat < 2 ^ 24 → B.toNat < 2 ^ 17 → g.mode ≠ 0 → (fr.st = .running ∨ fr.st = .deadlocked) → plotsAway s p = false →
      windowComplete g (field B 0 16) = true → g.floor ≤ field B 0 16 →
      ((bit B 16 = true ∨ irrevocableAbove s g (field B 0 16) = 0) → pl.moving = none →
        ∃ u, WaitsVia (.rwin d a b) s (.bump d.toNat p f) u ∧ SameStores s u ∧ others u ∧ u.elems = s.elems ∧
          (u.frameOf p f).st = .rolling ∧ (u.frameOf p f).bump = some (.rollback (field B 0 16) false) ∧ (u.frameOf p f).log = g) ∧
      (bit B 16 = false → 0 < irrevocableAbove s g (field B 0 16) →
        AnswersVia (.rwin d a b) s d (BitVec.ofNat 64 (0x0E13 * 2 ^ 48 + irrevocableAbove s g (field B 0 16))) s)) ∧
    (let r := stepEntries g (logEntries s g).reverse B.toNat
     A.toNat < 2 ^ 24 → g.mode = 2 → 0 < B.toNat → B.toNat < 2 ^ 32 → fr.paused = true → fr.st ≠ .complete → plotsAway s p = false →
      frameStill s p f = true → undoWaits s g r.1 = none →
      AnswersVia (.rstep d a b) s d (BitVec.ofNat 64 (if r.2 then 0x0E13 * 2 ^ 48 + r.1.length else r.1.length))
        (r.1.foldl (fun u l => undoEntry u p g l.1 l.2) s) ∧ r.1.length ≤ B.toNat ∧
      ∀ l ∈ r.1, l ∈ logEntries s g ∧ l.2.undone = false ∧ g.below ≤ l.2.win ∧ l.2.kind ≠ lgOPEN ∧ l.2.kind ≠ lgCLOSE ∧ l.2.kind ≠ lgIRREV) ∧
    (A.toNat < 2 ^ 24 → s.me.wait = none →
      (∀ on, (B.toNat = 2 ^ 62 ∧ on = true ∨ B.toNat = 2 ^ 63 ∧ on = false) →
        ∃ u, SameStores s u ∧ others u ∧ (u.frameOf p f).paused = on ∧
          (∀ e x, u.ctxOf e x = if (s.ctxOf e x).plid = p ∧ (s.ctxOf e x).st ≠ .free then
            { s.ctxOf e x with pauseReq := (s.ctxOf e x).pauseReq.filter (fun q => q.1 != f) ++ [(f, on)] } else s.ctxOf e x) ∧
          (pauseDue u p f = false → AnswersVia (.fstep d a b) s d 0 u) ∧
          (pauseDue u p f = true → WaitsVia (.fstep d a b) s (.fstep d.toNat p f false 0 0 0) u)) ∧
      (let n := field B 0 32
       let e := (field B 39 3 * 96 + field B 32 7) * 16 + field B 42 4
       let x := field B 46 2
       B.toNat < 2 ^ 48 → 0 < n → field B 39 3 < 6 → field B 32 7 < 96 → (s.ctxOf e x).st ≠ .free → (s.ctxOf e x).plid = p →
       fr.paused = true →
       ∃ u, WaitsVia (.fstep d a b) s (.fstep d.toNat p f true (s.ctxOf e x).velem n (Tab.getD (s.ctxOf e x).stepped f 0)) u ∧ SameStores s u ∧
         u.places = s.places ∧ Tab.getD (u.ctxOf e x).budget f 0 = Tab.getD (s.ctxOf e x).budget f 0 + n ∧
         (∀ e' x', (e', x') ≠ (e, x) → u.ctxOf e' x' = s.ctxOf e' x'))) ∧
    (∀ (m p' f' ve n base : Nat), s.me.wait = some (.fstep m p' f' true ve n base) → stepOver s p' f' ve n base = true →
      AnswersVia (.fstep d a b) s d (BitVec.ofNat 64 (min n (steppedAt s p' f' ve - base))) s) ∧
    (let mode := field A 24 2
     let base := field B 0 46
     let lg := (s.reg c).toNat
     A.toNat < 2 ^ 27 →
      (A.toNat < 2 ^ 24 → B = 0 → s.reg c = 0 → ∃ u, AnswersVia (.wcfg d a b c) s d 0 u ∧ SameStores s u ∧ others u ∧ (u.frameOf p f).log = { logOff with exempt := exempted g }) ∧
      (bit A 26 = false → (mode = 1 ∨ mode = 2) → B.toNat < 2 ^ 44 → lg < 64 → ringOk s base lg = true → pl.root ≠ none → fr.st = .opened →
        ∃ u, AnswersVia (.wcfg d a b c) s d 0 u ∧ SameStores s u ∧ others u ∧ (u.frameOf p f).log.mode = mode ∧ (u.frameOf p f).log.base = base ∧
          (u.frameOf p f).log.lg = lg ∧ (u.frameOf p f).log.head = 0 ∧ (u.frameOf p f).log.tail = 0 ∧
          (u.frameOf p f).log.win = highestWindow s p f) ∧
      (bit A 26 = true → (mode = 1 ∨ mode = 2) → mode = g.mode → B.toNat < 2 ^ 44 → lg < 64 → ringOk s base lg = true → pl.root ≠ none →
        g.tail - g.head ≤ 2 ^ lg → copyAmong s (ringPieces { g with base := base, lg := lg } g.head (g.tail - g.head)) = none →
        ∃ u, AnswersVia (.wcfg d a b c) s d 0 u ∧ u.elems = s.elems ∧ (u.frameOf p f).log.base = base ∧ (u.frameOf p f).log.lg = lg ∧
          (u.frameOf p f).log.head = g.head ∧ (u.frameOf p f).log.tail = g.tail))

/-- R227, R254, R441, R446: TLBI and the host's invalidations drop every translation in their scope at once, from the entries of sequencers and streams and from the TLBs of clusters and dies, have the
walks in scope start again, and begin an invalidation, for which TLBI waits; an
invalidation whose accesses have performed completes, and its TLBI goes on after 12 cycles. SNAP begins a latch of every block, or joins the one in
progress, and once every block has latched, each by itself, its counters and its status registers, answers its SEQ and g[a][15:0]. Where it goes beyond the rules' words it rests on the model's choices in log entries 44, 92. -/
def Obligations.InvalidationsAndSnapshots : Prop :=
  ∀ (s : State) (d a b : BitVec 5),
    let dropped := fun (u : State) (scope va asid : Nat) =>
      (∀ c, (u.clusterOf c).tlb = (s.clusterOf c).tlb.filter (fun l => !inScope scope va asid l)) ∧
        (∀ c l, (u.seqOf c).tlb = some l → inScope scope va asid l = false ∧ (s.seqOf c).tlb = some l) ∧
        (∀ e k l, vget (u.elemOf e).streams k none = some l → inScope scope va asid l = false) ∧
        (∀ n, Tab.getD u.dieTlb n [] = (Tab.getD s.dieTlb n []).filter (fun l => !inScope scope va asid l)) ∧
        u.walks = s.walks.map (fun w => if scope = 2 ∨ w.asid = asid then { w with lvl := 3, tbl := w.top, res := none } else w) ∧
        u.hbm = s.hbm ∧ u.places = s.places ∧ (∀ e, (u.elemOf e).port = (s.elemOf e).port) ∧ (∀ e x, u.ctxOf e x = s.ctxOf e x) ∧
        (∃ v ∈ u.invals, v.k = s.nextInval ∧ v.scope = scope ∧ v.asid = asid) ∧ u.nextInval = s.nextInval + 1
    (∀ (i : Instr) (scope va asid : Nat), s.me.kernel = true →
      (i, scope, va, asid) ∈ [(.tlbiPage a b, 0, field (s.reg a) 0 58, field (s.reg b) 0 16), (.tlbiAsid b, 1, 0, field (s.reg b) 0 16),
        (Instr.tlbiAll, 2, 0, 0)] →
      ∃ u, exec i s = .next u ∧ dropped u scope va asid ∧ u.me.wait = some (.inval s.nextInval) ∧ (∀ r, u.reg r = s.reg r) ∧ u.me.pc = s.me.pc ∧
        u.me.mem = s.me.mem ∧ u.me.status = s.me.status) ∧
    (∀ (i : Instr) (scope : Nat), s.dev.hinvBusy = false →
      (i, scope) ∈ [(.hostInvalidatePage, 0), (.hostInvalidateAsid, 1), (Instr.hostInvalidateAll, 2)] →
      ∃ u, exec i s = .next u ∧ dropped u scope (field s.dev.hinva 0 58) (field s.arg.v 0 16) ∧ u.dev = { s.dev with hinvc := s.arg.v, hinvBusy := true } ∧
        (∀ c, { u.seqOf c with tlb := (s.seqOf c).tlb } = s.seqOf c)) ∧
    (∀ (v : Inval), s.invals.find? (fun w => w.k == s.arg.k) = some v → invalDone s v = true →
      ∃ u, exec .invalidationComplete s = .next u ∧ (∀ w, w ∈ u.invals ↔ w ∈ s.invals ∧ w.k ≠ s.arg.k) ∧
        (v.issuer = none → u.dev.hinvBusy = false) ∧
        (∀ c, v.issuer = some c → (s.seqOf c).wait = some (.inval v.k) → (s.seqOf c).stopReq = false →
          u.seqOf c = (s.seqOf c).went ((s.seqOf c).pc + 4) 12)) ∧
    (s.me.stopReq = false → s.me.kernel = true →
      (let u : State := if s.dev.latching = [] then { s with dev := { s.dev with snapSeq := s.dev.snapSeq + 1, latching := snapBlocks } } else s
       (∀ seq, s.me.wait ≠ some (.snap seq)) → WaitsVia (.snap d a) s (.snap u.dev.snapSeq) u) ∧
      (∀ seq : BitVec 32, s.me.wait = some (.snap seq) → s.dev.latching = [] ∨ s.dev.snapSeq ≠ seq →
        AnswersVia (.snap d a) s d (BitVec.ofNat 64 (seq.toNat * 2 ^ 32 + (s.reg a).toNat % 2 ^ 16)) s)) ∧
    (∀ (n : Nat) (s0 : State), pickMove s = some (s0, .latch n) → n ∈ s0.dev.latching →
      ∃ t, step s = quietAfter s0 (.latch n) (.next t) ∧
        t = { s0 with dev := { s0.dev with latching := s0.dev.latching.filter (fun k => k != n), snap := t.dev.snap, snapRegs := t.dev.snapRegs } } ∧
        (∀ off, Tab.getD t.dev.snap off 0 = if blockOf off = n then Tab.getD s0.dev.counters off 0 else Tab.getD s0.dev.snap off 0) ∧
        (∀ r ∈ statusRegs s0 n, Tab.get? t.dev.snapRegs r.1 = some r.2) ∧
        ∀ off, statusBlock off ≠ n → (∀ r ∈ statusRegs s0 n, r.1 ≠ off) → Tab.get? t.dev.snapRegs off = Tab.get? s0.dev.snapRegs off)

/-! Events of the fabric (R66 to R77, R87, R149, R163 to R165, R326 to R329, R338, R346, R361 to R364) -/

/-- R66, R67, R70 to R75, R149, R163 to R165, R329, R361, R364: what the fabric does by itself with tokens: acceptance, spill, return and sweep, the
completion of a firing, KILL, COMMIT and MARK tokens, the settlement of a fault, and the staging of a cut. Where it goes beyond the rules' words it rests on the model's choices in log entries 17, 31, 108, 116, 125. -/
def Obligations.TokenEvents : Prop :=
  ∀ (s : State), let e := s.arg.e
    let x := s.arg.x
    let r := s.arg.r
    let c := s.ctxOf e x
    let rt := vget c.routes r 0
    let he := rtElem rt
    let hx := rtCTX rt
    let h := s.ctxOf he hx
    let cl := clusterOfElem he
    let busy := fun (m : MsEntry) => (match m.st with
      | .firing _ => true
      | _ => false)
    e < 9216 → x < 4 →
    (∀ t : Tok, fifoHead s e x r = some t →
      let f := t.frame.toNat
      let t' := onRoute rt t
      let kept := h.st = .live ∧ h.plid = c.plid ∧ frameTakes (s.frameOf c.plid f) = true
      let fresh := s.genAt c.plid f cl = t.gen
      let chan := chanRoute c.velem r
      let gone := fun (u : State) => vget (u.ctxOf e x).fifo r [] = (vget c.fifo r []).tail
      let released := fun (u : State) => (c.plid, (countedFor t).1, (countedFor t).2.toNat) ∈ (u.clusterOf (clusterOfElem e)).act
      (tokenWaits s e x r = true →
        (kept → fresh →
          let s0 := channelToken s he hx chan (rtNET rt) t'
          let s1 := if hasSpill s h then drainSpill (s0.spills.length + 1) s0 he hx else s0
          let enters := msTakes s1 he hx t' = true ∧ spilledAhead s1 h chan = false
          (enters → ∃ u m, exec .tokenAccept s = .next u ∧ gone u ∧ released u ∧ (u.ctxOf he hx).ms = (s1.ctxOf he hx).ms ++ [m] ∧ m.st = .idle ∧
            m.net = rtNET rt ∧ m.tok.port.toNat = rtPORT rt ∧ m.tok.kind = t.kind ∧ m.tok.iter = t.iter ∧ m.tok.spec = t.spec ∧
            m.tok.frame = t.frame ∧ m.tok.gen = t.gen ∧ (t.tile = none → m.tok.payload = t.payload)) ∧
          (∀ b, ¬ enters → spillPlace s1 cl c.plid t' = some b →
            ∃ u sp, exec .tokenAccept s = .next u ∧ gone u ∧ released u ∧ u.spills = s1.spills ++ [sp] ∧ sp.plid = c.plid ∧ sp.vp = h.vp ∧ sp.el = h.el ∧
              sp.hbm = b ∧ sp.tok.payload = t.payload ∧ (u.ctxOf he hx).spillcnt = (s1.ctxOf he hx).spillcnt + 1 ∧
              (u.ctxOf he hx).ms = (s1.ctxOf he hx).ms) ∧
          (¬ enters → spillPlace s1 cl c.plid t' = none →
            ∃ u, exec .tokenAccept s = .next u ∧ (u.ctxOf e x).fifo = c.fifo ∧ (hasSpill s h = false → u.elems = s.elems ∧ u.spills = s.spills))) ∧
        (kept → ¬ fresh → ∃ u, exec .tokenAccept s = .next u ∧ gone u ∧ released u ∧ (u.clusterOf cl).stalecnt = (s.clusterOf cl).stalecnt + 1 ∧
          (u.ctxOf he hx).ms = h.ms) ∧
        (¬ kept → ∃ u, exec .tokenAccept s = .next u ∧ gone u ∧ released u ∧ (u.clusterOf cl).straycnt = (s.clusterOf cl).straycnt + 1 ∧
          (u.ctxOf he hx).ms = h.ms)) ∧
      (controlWaits s e x r .kill = true →
        (kept → fresh → ∃ u, exec .killTokenAccept s = .next u ∧ released u ∧ ((he, hx) ≠ (e, x) → gone u) ∧
          (u.ctxOf he hx).ms = h.ms.filter (fun m => !killScope (ccwIW h.ccw) t m.tok) ∧
          (u.ctxOf he hx).inflight = h.inflight.map (fun i => i.killed (ccwIW h.ccw) t') ∧
          (hasSpill s h = true → (u.ctxOf he hx).spillKills = h.spillKills ++ [t']) ∧
          (∀ w, portOwner h (rtNET rt) (rtPORT rt) = some w → reachesEntries (wOPC w) = true → ∀ m ∈ (u.elemOf he).port, m.x = hx → m.plid = h.plid →
            killScope (ccwIW h.ccw) t m.tag = true → m.dead = true)) ∧
        (kept → ¬ fresh → ∃ u, exec .killTokenAccept s = .next u ∧ gone u ∧ released u ∧ (u.clusterOf cl).stalecnt = (s.clusterOf cl).stalecnt + 1) ∧
        (¬ kept → ∃ u, exec .killTokenAccept s = .next u ∧ gone u ∧ released u ∧ (u.clusterOf cl).straycnt = (s.clusterOf cl).straycnt + 1)) ∧
      (controlWaits s e x r .commit = true →
        (kept → fresh → ∃ u, exec .commitTokenAccept s = .next u ∧ released u ∧ ((he, hx) ≠ (e, x) → gone u) ∧
          (u.ctxOf he hx).ms = h.ms.map (fun m => if commitScope t m.tok then { m with tok := { m.tok with spec := 0 } } else m) ∧
          (u.ctxOf he hx).inflight = h.inflight.map (fun i => i.committed t') ∧
          (hasSpill s h = true → (u.ctxOf he hx).spillKills = h.spillKills ++ [t']) ∧
          (∀ w, portOwner h (rtNET rt) (rtPORT rt) = some w → reachesEntries (wOPC w) = true → ∀ m ∈ (u.elemOf he).port, m.x = hx → m.plid = h.plid → m.dead = false →
            commitScope t m.tag = false)) ∧
        (kept → ¬ fresh → ∃ u, exec .commitTokenAccept s = .next u ∧ gone u ∧ released u ∧ (u.clusterOf cl).stalecnt = (s.clusterOf cl).stalecnt + 1) ∧
        (¬ kept → ∃ u, exec .commitTokenAccept s = .next u ∧ gone u ∧ released u ∧ (u.clusterOf cl).straycnt = (s.clusterOf cl).straycnt + 1)) ∧
      (markTakes s e x r = true → ∃ u, exec .markTokenAccept s = .next u ∧ gone u ∧
        (¬ fresh → (u.clusterOf cl).stalecnt = (s.clusterOf cl).stalecnt + 1) ∧
        (fresh → ∀ z, stagingOf h f t.payload.toNat = some z → z.done = false →
          ∃ z' ∈ (u.ctxOf he hx).stagings, z'.frame = f ∧ z'.w = t.payload.toNat ∧ chan ∈ z'.marks))) ∧
    (spillReturns s e x = true →
      (∀ v : Spilled, s.spills.find? (spillOf c) = some v →
        (v.tok.gen = s.genAt c.plid v.tok.frame.toNat (clusterOfElem e) → ∃ u m, exec .spillReturn s = .next u ∧ u.spills = eraseFirst (· == v) s.spills ∧
          (u.ctxOf e x).ms = c.ms ++ [m] ∧ m.tok.kind = v.tok.kind ∧ m.tok.port = v.tok.port ∧ m.tok.iter = v.tok.iter ∧ m.net = v.net) ∧
        (v.tok.gen ≠ s.genAt c.plid v.tok.frame.toNat (clusterOfElem e) → ∃ u, exec .spillReturn s = .next u ∧
          u.spills = eraseFirst (· == v) s.spills ∧ (u.ctxOf e x).ms = c.ms ∧ (u.clusterOf v.cl).stalecnt = (s.clusterOf v.cl).stalecnt + 1)) ∧
      (∀ (w : Bool × Tok) (rest : List (Bool × Tok)), s.spills.find? (spillOf c) = none → c.waitIn = w :: rest →
        (w.2.gen = s.genAt c.plid w.2.frame.toNat (clusterOfElem e) → ∃ u m, exec .spillReturn s = .next u ∧ (u.ctxOf e x).waitIn = rest ∧
          (u.ctxOf e x).ms = c.ms ++ [m] ∧ m.tok.kind = w.2.kind ∧ m.tok.port = w.2.port ∧ m.tok.iter = w.2.iter ∧ m.net = w.1) ∧
        (w.2.gen ≠ s.genAt c.plid w.2.frame.toNat (clusterOfElem e) → ∃ u, exec .spillReturn s = .next u ∧ (u.ctxOf e x).waitIn = rest ∧
          (u.ctxOf e x).ms = c.ms ∧ (u.clusterOf (clusterOfElem e)).stalecnt = (s.clusterOf (clusterOfElem e)).stalecnt + 1))) ∧
    (∀ (t : Tok) (rest : List Tok), c.spillKills = t :: rest → ∃ u, exec .spillAreaAnnihilate s = .next u ∧ (u.ctxOf e x).spillKills = rest ∧
      (t.kind = .kill → u.spills = s.spills.filter (fun v => !(spillOf c v && killScope (ccwIW c.ccw) t v.tok)) ∧
        (u.ctxOf e x).waitIn = c.waitIn.filter (fun w => !killScope (ccwIW c.ccw) t w.2)) ∧
      (t.kind = .commit → u.spills = s.spills.map (fun v => if spillOf c v && commitScope t v.tok then { v with tok := { v.tok with spec := 0 } } else v) ∧
        (u.ctxOf e x).waitIn = c.waitIn.map (fun w => (w.1, if commitScope t w.2 then { w.2 with spec := 0 } else w.2)))) ∧
    (∃ u, exec .staleSweep s = .next u ∧ ∀ x', x' < 4 → (s.ctxOf e x').st ≠ .free →
      (u.ctxOf e x').ms = (s.ctxOf e x').ms.filter (fun m => busy m || !staleTok s (clusterOfElem e) (s.ctxOf e x').plid m.tok) ∧
      ∀ v ∈ u.spills, spillOf (s.ctxOf e x') v = true → staleTok s (clusterOfElem e) (s.ctxOf e x').plid v.tok = false) ∧
    (∀ fl : Firing, c.inflight.find? (fun f => f.k == s.arg.k) = some fl →
      let current := fun (t : Tok) => s.genAt c.plid t.frame.toNat (clusterOfElem e) == t.gen
      let home := (s.frameOf c.plid fl.tag.frame.toNat).home
      let known := current fl.tag && s.genAt c.plid fl.tag.frame.toNat home == fl.tag.gen
      (∀ rs sw posts, fl.out = .emit rs sw posts →
        let runs := heldOp fl.opc && (match sw with
          | some w => bit w 63
          | none => false)
        ∃ u, exec .firingCompletion s = .next u ∧ (u.ctxOf e x).inflight = eraseFirst (· == fl) c.inflight ∧
          (u.ctxOf e x).ms = (c.ms.filter (fun m => !fl.used.contains m.ord || (runs && m.ord == fl.opA.ord))).map (fun m =>
            if fl.used.contains m.ord then { m with st := .start fl.k } else m) ∧
          (u.elemOf e).cyc = max (s.elemOf e).cyc fl.ends ∧
          ((∀ q ∈ rs, q.dest ≠ 14) → (u.ctxOf e x).sw = (match sw with
            | some w => vset c.sw fl.k w
            | none => c.sw)) ∧
          ((∀ q ∈ rs, q.tok.kind ≠ .kill ∧ q.tok.kind ≠ .commit) → ∀ d, d < 14 → vget (u.ctxOf e x).fifo d [] =
            vget c.fifo d [] ++ (rs.filter (fun q => q.dest == d && current q.tok)).map (·.tok))) ∧
      (∀ code val, fl.out = .fault code val → fl.cancel = true → ∃ u, exec .firingCompletion s = .next u ∧
        (u.ctxOf e x).inflight = eraseFirst (· == fl) c.inflight ∧ (u.ctxOf e x).ms = c.ms.filter (fun m => !fl.used.contains m.ord)) ∧
      (∀ code val, fl.out = .fault code val → fl.cancel = false → known = false → ∃ u, exec .firingCompletion s = .next u ∧
        (u.ctxOf e x).inflight = eraseFirst (· == fl) c.inflight ∧ (u.ctxOf e x).ms = c.ms.filter (fun m => !fl.used.contains m.ord)) ∧
      (∀ code val, fl.out = .fault code val → fl.cancel = false → known = true → ∃ u p rec', exec .firingCompletion s = .next u ∧
        (u.ctxOf e x).inflight = eraseFirst (· == fl) c.inflight ∧ (u.clusterOf home).dir = (s.clusterOf home).dir ++ [p] ∧
          (u.clusterOf home).recq = (s.clusterOf home).recq ++ [rec'] ∧ p.k = fl.k ∧ p.settle = none ∧ p.fseq = none ∧ rec'.code = code ∧
          rec'.fval = val ∧ rec'.kind = 0 ∧ rec'.opc = fl.opc ∧ rec'.fault = some p.id ∧
          (u.ctxOf e x).ms = c.ms.map (fun m => if fl.used.contains m.ord then
            { m with st := .fault p.id !(fl.opA.fromMs && m.ord == fl.opA.ord) } else m))) ∧
    (∀ (p : Pending) (rs : List Emit) (sw : Option Word) (e' x' : Nat), s.arg.c < 576 →
      (s.clusterOf s.arg.c).dir.find? (fun p => p.id == s.arg.k) = some p → settleable s p = true → p.settle = some (rs, sw) →
      holderOf s p.plid p.vp p.el = some (e', x') → ∃ u, exec .settlementTakeEffect s = .next u ∧
        (∀ q ∈ (u.clusterOf s.arg.c).dir, q.id ≠ p.id) ∧
        (u.ctxOf e' x').ms = (s.ctxOf e' x').ms.filter (fun m => m.st != .fault p.id false && m.st != .fault p.id true) ∧
        ((∀ q ∈ rs, q.dest ≠ 14) → (u.ctxOf e' x').sw = (match sw with
          | some w => vset (s.ctxOf e' x').sw p.k w
          | none => (s.ctxOf e' x').sw)) ∧
        ((∀ q ∈ rs, q.tok.kind ≠ .kill ∧ q.tok.kind ≠ .commit) → ∀ d, d < 14 → vget (u.ctxOf e' x').fifo d [] = vget (s.ctxOf e' x').fifo d [] ++
          (rs.filter (fun q => q.dest == d && s.genAt (s.ctxOf e' x').plid q.tok.frame.toNat (clusterOfElem e') == q.tok.gen)).map (·.tok))) ∧
    (∀ w, cutOpens s c.plid s.arg.f = some w → stageable s e x s.arg.f = true → ∃ u, exec .cutStaging s = .next u ∧
      Tab.getD (u.ctxOf e x).wins s.arg.f 0 = w ∧
      ∃ z ∈ (u.ctxOf e x).stagings, z.frame = s.arg.f ∧ z.w = w ∧ z.sw = c.sw.toList ∧ z.accs = accBytes c)

/-- R57, R68 to R70, R76, R77, R86, R87, R100, R326, R327, R330, R338, R362 to R364, R368: what criers, the PA and the fault queue do by themselves: the reports of a census
round and its outcome, a quiet counter that reaches Q, the tables of a GEN bump, a move, a waiting GLOAD, the landing of a priority and of a pause, the end of a cut, and the
writing of a record. That rounds are run for RUNNING frames only is the model's choice (log 112). Where it goes beyond the rules' words it rests on the model's choices in log entries 16, 18, 60, 112, 118, 119, 132. -/
def Obligations.FrameAndPlacementEvents : Prop :=
  ∀ (s : State), let p := s.arg.p
    let f := s.arg.f
    let c := s.arg.c
    let e := s.arg.e
    let x := s.arg.x
    let fr := s.frameOf p f
    let key := (p, f, fr.gen.toNat)
    let noPacket := ∀ g ∈ waitingPackets s, ∀ d, g.2.wait ≠ .op (.bump d p f)
    (c ∈ fr.asked → ∃ u, exec .censusRoundStart s = .next u ∧ (u.frameOf p f).round = fr.round.map (· ++ [reportOf s p f c]) ∧
      (u.frameOf p f).asked = fr.asked.filter (· != c) ∧ key ∉ (u.clusterOf c).act ∧ u.elems = s.elems ∧ u.seqs = s.seqs) ∧
    (c ∉ fr.asked → fr.st = .running → fr.announced = true → fr.round = none → c ∈ roundClusters s p f → ∃ u, exec .censusRoundStart s = .next u ∧
      (u.frameOf p f).announced = false ∧ (u.frameOf p f).round = some [reportOf s p f c] ∧
      (u.frameOf p f).asked = (roundClusters s p f).filter (· != c) ∧ key ∉ (u.clusterOf c).act ∧ u.elems = s.elems ∧ u.seqs = s.seqs) ∧
    (c < 576 → let k := 4 * c + (s.genAt p f c).toNat
      Tab.get? fr.quiet k = some (quietInterval s p) → ∃ u, exec .quietIntervalExpiry s = .next u ∧
        Tab.get? (u.frameOf p f).quiet k = some (quietInterval s p + 1) ∧ (∀ j, j ≠ k → Tab.get? (u.frameOf p f).quiet j = Tab.get? fr.quiet j) ∧
        (u.frameOf p f).announced = (fr.announced || fr.st == .running) ∧ u.elems = s.elems ∧ u.seqs = s.seqs ∧ u.clusters = s.clusters) ∧
    (∀ reps, fr.asked = [] → fr.round = some reps → ∃ u, exec .censusRoundOutcome s = .next u ∧ (u.frameOf p f).round = none ∧
      (u.frameOf p f).lastSum = (reps.map (·.count)).sum ∧ u.elems = s.elems ∧
      (fr.st = .running → (u.frameOf p f).st = (if (reps.map (·.count)).sum = 0 then (if reps.any (·.active) then .running else .complete)
        else if reps.all (·.quiet) then .deadlocked else FrameSt.running)) ∧
      (fr.st ≠ .running → (u.frameOf p f).st = fr.st) ∧
      (fr.st = .running → (reps.map (·.count)).sum = 0 → reps.any (·.active) = true → (u.frameOf p f).announced = true)) ∧
    (fr.bump ≠ none → (∀ k, fr.bump ≠ some (.rollback k true)) →
      let cls := custodyClusters s p
      let begins := fr.old = [] ∧ mayBump s p f = true ∧ c ∈ cls
      let goes := c ∈ fr.old
      let ends := (begins ∧ ∀ c' ∈ cls, c' = c) ∨ (goes ∧ ∀ c' ∈ fr.old, c' = c)
      let g := if fr.old = [] then fr.gen + 1 else fr.gen
      (begins → ¬ ends → ∃ u, exec .genBumpComplete s = .next u ∧ (u.frameOf p f).gen = fr.gen + 1 ∧ (u.frameOf p f).old = cls.filter (· != c) ∧
        (u.frameOf p f).st = fr.st ∧ (u.frameOf p f).bump = fr.bump ∧ u.seqs = s.seqs) ∧
      (goes → ¬ ends → ∃ u, exec .genBumpComplete s = .next u ∧ (u.frameOf p f).gen = fr.gen ∧ (u.frameOf p f).old = fr.old.filter (· != c) ∧
        (u.frameOf p f).st = fr.st ∧ (u.frameOf p f).bump = fr.bump ∧ u.seqs = s.seqs) ∧
      (ends → fr.bump = some .kill → noPacket → ∃ u, exec .genBumpComplete s = .next u ∧ (u.frameOf p f).gen = g ∧ (u.frameOf p f).old = [] ∧
        (u.frameOf p f).st = .opened ∧ (u.frameOf p f).hold = true ∧ (u.frameOf p f).bump = none ∧
        (∀ k d, (s.seqOf k).wait = some (.bump d p f) → (s.seqOf k).stopReq = false →
          (u.seqOf k).pc = (s.seqOf k).pc + 4 ∧ (u.seqOf k).wait = none ∧
            (BitVec.ofNat 5 d ≠ 0 → (u.seqOf k).reg (BitVec.ofNat 5 d) = BitVec.ofNat 64 (g.toNat * 1024)))) ∧
      (∀ k, ends → fr.bump = some (.rollback k false) → ∃ u, exec .genBumpComplete s = .next u ∧ (u.frameOf p f).gen = g ∧ (u.frameOf p f).old = [] ∧
        (u.frameOf p f).bump = some (.rollback k true) ∧ (u.frameOf p f).log = fr.log ∧ u.seqs = s.seqs)) ∧
    (∀ k, fr.bump = some (.rollback k true) → frameStill s p f = true → undoWaits s fr.log (entriesAbove s fr.log k) = none → noPacket → ∃ u, exec .genBumpComplete s = .next u ∧
      (u.frameOf p f).st = .running ∧ (u.frameOf p f).bump = none ∧ (u.frameOf p f).log.win = k + 1 ∧ (u.frameOf p f).log.cut = none) ∧
    (∀ (pl : Placement) (v : Nat) (pc : Nat × Nat), s.placeOf p = some pl → pl.moving = some v → pl.map.getD v none = some pc → pc.2 < 4 → plotDrained s pc = true →
      (∀ y, takenPlot s p v = none → lowerFit s pl v pc = some y → ∃ u, exec .plotMove s = .next u ∧ u.places = s.places ∧
        ∀ i, i < 4 → let k := u.ctxOf (4 * y.1 + i) y.2
          k.st = .filling ∧ k.plid = p ∧ k.vp = v ∧ k.el = i) ∧
      (∀ y, takenPlot s p v = some y → s.pa = none → ∃ u, exec .plotMove s = .next u ∧ u.releases = s.releases + 1 ∧
        (∃ pl', u.placeOf p = some pl' ∧ pl'.moving = none ∧ pl'.map = setAt pl.map v (some y)) ∧
        ∀ i, i < 4 → (u.ctxOf (4 * y.1 + i) y.2).st = .live ∧ (u.ctxOf (4 * y.1 + i) y.2).words = (s.ctxOf (4 * pc.1 + i) pc.2).words) ∧
      (takenPlot s p v = none → lowerFit s pl v pc = none → s.pa = none → ∃ u, exec .plotMove s = .next u ∧ u.releases = s.releases ∧
        (∃ pl', u.placeOf p = some pl' ∧ pl'.moving = none ∧ pl'.map = pl.map) ∧ ∀ i, i < 4 → (u.ctxOf (4 * pc.1 + i) pc.2).st = .live)) ∧
    (∀ (d : Nat) (img : List Byte) (oneDie wait : Bool) (tries since : Nat) (issued : Word), s.arg.ok = false →
      (s.seqOf c).wait = some (.place d img oneDie wait tries since issued) → (s.seqOf c).stopReq = false →
      let refused := fun (u : State) => (u.seqOf c).wait = none ∧ (u.seqOf c).pc = (s.seqOf c).pc + 4 ∧ u.places = s.places ∧
        (BitVec.ofNat 5 d ≠ 0 → (u.seqOf c).reg (BitVec.ofNat 5 d) = 0x0214000000000000#64)
      (s.pa = none → (tries = 0 ∨ since ≠ s.releases) → ∀ m n, placeImage s img oneDie = some m → freePlid s = some n → ∃ u, exec .placementRetry s = .next u ∧
        u.placeOf n ≠ none ∧ (∀ q, q ≠ n → u.placeOf q = s.placeOf q) ∧ u.seqOf c = { s.seqOf c with wait := some (.filling d n (BitVec.ofNat 64 n)) }) ∧
      (s.pa = none → tries ≠ 0 → since ≠ s.releases → (placeImage s img oneDie = none ∨ freePlid s = none) →
        (wait = true → tries < 15 → ∃ u, exec .placementRetry s = .next u ∧ u.places = s.places ∧
          u.seqOf c = { s.seqOf c with wait := some (.place d img oneDie wait (tries + 1) s.releases issued) }) ∧
        ((wait = false ∨ 15 ≤ tries) → ∃ u, exec .placementRetry s = .next u ∧ refused u)) ∧
      (wait = true → 2 ^ 27 ≤ ((s.seqOf c).cycle - issued).toNat → ∃ u, exec .placementBudgetExpiry s = .next u ∧ refused u)) ∧
    (∀ v, e < 9216 → x < 4 → (s.ctxOf e x).newPrio = some v → (s.ctxOf e x).inflight = [] → ∃ u, exec .prioLanding s = .next u ∧
      (u.ctxOf e x).newPrio = none ∧ field (u.ctxOf e x).ccw 0 3 = v % 8 ∧ field (u.ctxOf e x).ccw 3 61 = field (s.ctxOf e x).ccw 3 61) ∧
    (∀ on, e < 9216 → x < 4 → (s.ctxOf e x).pauseReq.find? (fun q => q.1 == f) = some (f, on) → (∀ i ∈ (s.ctxOf e x).inflight, i.tag.frame.toNat ≠ f) →
      ∃ u, exec .pauseLanding s = .next u ∧ (f ∈ (u.ctxOf e x).paused ↔ on = true) ∧ (∀ q ∈ (u.ctxOf e x).pauseReq, q.1 ≠ f) ∧
        Tab.getD (u.ctxOf e x).budget f 0 = 0) ∧
    (∀ w, fr.log.cut = some w → cutDone s p f = true → copyAmong s (ringPieces fr.log fr.log.tail 32) = none → ∃ u, exec .windowClose s = .next u ∧ (u.frameOf p f).log.cut = none ∧
      (u.frameOf p f).log.tail = fr.log.tail + 32 ∧ (u.frameOf p f).log.head = fr.log.head ∧
      (Tab.get? fr.log.states w = some .cutting → windowComplete (u.frameOf p f).log w = true) ∧
      (∀ k b, fr.log.cutEvent = some (k, b) → eventBit u k b = true)) ∧
    (∀ z, e < 9216 → x < 4 → drainable s e x f = some z → let q := (s.ctxOf e x).plid
      let n := entrySize (checkpointBytes (s.ctxOf e x) x z).length
      let h : Holder := { kind := 2, loc := e, num := x, va := 0 }
      (logRoom (s.frameOf q f).log n = true → copyAmong s (ringPieces (s.frameOf q f).log (s.frameOf q f).log.tail n) = none →
        ∃ u, exec .checkpointDrain s = .next u ∧ (u.frameOf q f).log.tail = (s.frameOf q f).log.tail + n ∧
        (s.ctxOf e x).velem ∈ (u.frameOf q f).log.drained ∧ ∀ y ∈ (u.ctxOf e x).stagings, y.frame = f → y.w = z.w → y.sw = []) ∧
      (logRoom (s.frameOf q f).log n = false → h ∉ (s.frameOf q f).log.waiting → ∃ u, exec .checkpointDrain s = .next u ∧
        (u.frameOf q f).log.waiting = (s.frameOf q f).log.waiting ++ [h] ∧ (u.frameOf q f).log.tail = (s.frameOf q f).log.tail)) ∧
    (∀ rec', c < 576 → nextRecord (s.clusterOf c) (s.clusterOf c).recq [] = some rec' → memWf (s.clusterOf c).com = true →
      let base := faultQueueBase s c + 64 * field (s.seqOf c).fqtail 0 10
      let there := ∀ id, rec'.fault = some id → ∃ q ∈ (s.clusterOf c).dir, q.id = id
      (there → recordWritable s c = true → ∃ u, exec .faultRecordWrite s = .next u ∧ (u.clusterOf c).recq = eraseFirst (· == rec') (s.clusterOf c).recq ∧
        (u.seqOf c).fqseq = (s.seqOf c).fqseq + 1 ∧ field (u.seqOf c).fqtail 0 10 = ((s.seqOf c).fqseq + 1).toNat % 1024 ∧
        memRead (u.clusterOf c).com base 64 = recordBytes rec' (s.seqOf c).fqseq ∧
        (∀ y, y < base ∨ base + 64 ≤ y → memByte (u.clusterOf c).com y = memByte (s.clusterOf c).com y) ∧
        ∀ q ∈ (u.clusterOf c).dir, rec'.fault = some q.id → q.fseq = some (s.seqOf c).fqseq) ∧
      (¬ there → ∃ u, exec .faultRecordWrite s = .next u ∧ (u.clusterOf c).recq = eraseFirst (· == rec') (s.clusterOf c).recq ∧
        (u.clusterOf c).com = (s.clusterOf c).com ∧ u.seqs = s.seqs))

/-! Events of the memory port, the copy engine and the queues (R225 to R251, R284 to R308) -/

/-- R170, R220, R225, R226, R229, R231, R234, R236, R238, R239, R241, R242, R244 to R248, R250: a memory-port entry's way, from its first checks, its translation and its walk,
over its sending and the events of its access at the home, to its results; the return of a POOL access; and the event operations at another cluster. An access at the
home is stated here for a scalar or an atomic of one local HBM line by a frame that does not log, and for a store that the host port has accepted. Where it goes beyond the rules' words it rests on the model's choices in log entries 16, 35, 36, 38, 41, 137, 139, 140. -/
def Obligations.MemoryPortEvents : Prop :=
  ∀ (s : State), let e := s.arg.e
    let k := s.arg.k
    e < 9216 →
    (∀ w a, s.arg.ok = true → s.posted.find? (fun v => v.id == k) = some w → w.loc = .host a →
      (s.posted.find? (fun v => outPort v.loc == outPort w.loc) = some w → ∃ u, exec .homeAccessPerform s = .next u ∧
        u.hostMem = memWrite s.hostMem a w.bytes ∧ (∀ v ∈ u.posted, v.id ≠ w.id) ∧ u.hbm = s.hbm ∧ u.guestMem = s.guestMem ∧
        (∀ d n m, w.owner = .entry d n → s.entry? d n = some m → m.st = .away → awaited u d n = false →
          u.entry? d n = some { m with st := .performed })) ∧
      (s.posted.find? (fun v => outPort v.loc == outPort w.loc) ≠ some w → exec .homeAccessPerform s = .next s)) ∧
    (∀ w p, s.arg.ok = true → s.walks[s.arg.n]? = some w → w.res = none →
      readTable s w.key (w.tbl * 2 ^ 14 + 8 * (w.va / 2 ^ (14 + 11 * w.lvl) % 2 ^ 11)) = .ok p →
      ∃ u, exec .tableWalkComplete s = .next u ∧ u.hbm = s.hbm ∧ u.elems = s.elems ∧
        (pteV p = false → u.walks[s.arg.n]? = some { w with res := some (.fault cTRANSLATION) }) ∧
        (pteV p = true → field p 56 8 = 0 → pteKind p = 1 → 0 < w.lvl → field p 3 23 = 0 →
          u.walks[s.arg.n]? = some { w with lvl := w.lvl - 1, tbl := pteFr p }) ∧
        (pteV p = true → field p 56 8 = 0 → pteKind p = 2 → leafValid w.lvl p = true →
          u.walks[s.arg.n]? = some { w with res := some (.leaf { asid := w.asid, level := w.lvl, vpage := w.va / pageSize w.lvl, pte := p }) })) ∧
    ∀ (m : MemEntry), s.entry? e k = some m →
    let unlogged := (s.frameOf m.plid (mFrame m)).log.mode = 0
    let cl := clusterOfElem e
    let one := fun (l : Line) (a : Nat) => m.lines = [l] ∧ l.loc = .hbm a ∧ l.n = mSize m ∧ a % 128 + l.n ≤ 128 ∧ hbmOk s l.key a l.n = true ∧
      a / 128 ∉ s.guest.copies ∧ lineHeldBut s (mHolds e m) (.hbm a) = false ∧ awaited s e k = false ∧ performable s e m = true ∧
      m.todo = [0] ∧ m.taken = [] ∧ m.fwd = []
    (refillable s e m = true →
      (∀ code v, firstChecks s e m = some (code, v) → mPast s e m = false → ∃ u, exec .streamRefill s = .next u ∧ EntryFaulted s u e m code v) ∧
      (∀ root, firstChecks s e m = none → rootOf s m.plid = some root → allCached s e m root = false →
        ∃ u, exec .streamRefill s = .next u ∧ u.entry? e k = some { m with st := .walking } ∧ u.hbm = s.hbm ∧
          ∃ w ∈ u.walks, w.who = .entry e k ∧ w.res = none) ∧
      (firstChecks s e m = none → mPast s e m = false → (∀ root, rootOf s m.plid = some root → allCached s e m root = true) →
        ∃ u, exec .streamRefill s = .next u ∧ Translates s u e m)) ∧
    (m.st = .walking → s.arg.ok = false →
      (m.dead = true → ∃ u, exec .tableWalkComplete s = .next u ∧ u.entry? e k = none ∧ u.clusters = s.clusters) ∧
      (m.dead = false → mStale s e m = true → ∃ u, exec .tableWalkComplete s = .next u ∧ u.entry? e k = none ∧
        (u.clusterOf cl).stalecnt = (s.clusterOf cl).stalecnt + 1) ∧
      (∀ root, m.dead = false → mStale s e m = false → rootOf s m.plid = some root → allCached s e m root = false →
        ∃ u, exec .tableWalkComplete s = .next u ∧ u.entry? e k = some m ∧ u.hbm = s.hbm) ∧
      (m.dead = false → mPast s e m = false → (∀ root, rootOf s m.plid = some root → allCached s e m root = true) →
        ∃ u, exec .tableWalkComplete s = .next u ∧ Translates s u e m)) ∧
    (sendable s e m = true →
      (m.todo = [] → ∃ u, exec .memoryEntrySend s = .next u ∧ u.remotes = s.remotes ∧ u.hbm = s.hbm ∧
        u.entry? e k = some { m with
          st := .sent, data := List.replicate ((m.lines.map (·.n)).sum) 0, todo := List.range (if mOpc m = 0x52 then 2 else (events m).length)
          fwd := if mLoad m then forwarded (loadFrom s e m) else [] }) ∧
      (m.todo ≠ [] → ∃ u, exec .memoryEntrySend s = .next u ∧ u.remotes = s.remotes ∧ u.hbm = s.hbm ∧
        u.entry? e k = some { m with st := .sent })) ∧
    (mOpc m = 0x52 → s.arg.ok = false → s.arg.n = 0 → performable s e m = true → m.todo = [0, 1] → unlogged →
      ∃ u, exec .homeAccessPerform s = .next u ∧ u.hbm = s.hbm ∧ u.entry? e k = some { m with
        todo := [1]
        acks := m.acks ++ ((mcDest (mcGroup s m)).filter (fun p => p != ownPeer s && !peerReachable s p)).map (fun p => (p, 3)) }) ∧
    (∀ l a, one l a → s.arg.ok = false → s.arg.n = 0 → memWf s.hbm = true → unlogged →
      (mOpc m = 0x46 → ∃ u, exec .homeAccessPerform s = .next u ∧ memRead u.hbm a l.n = leBytes l.n m.opB.tok.payload.toNat ∧
        (∀ y, y < a ∨ a + l.n ≤ y → memByte u.hbm y = memByte s.hbm y) ∧
        ∃ m', u.entry? e k = some m' ∧ m'.st = .performed ∧ m'.todo = [] ∧ m'.poison = m.poison) ∧
      (mOpc m = 0x45 → m.data.length = l.n → ∃ u, exec .homeAccessPerform s = .next u ∧ u.hbm = s.hbm ∧
        ∃ m', u.entry? e k = some m' ∧ m'.st = .performed ∧ m'.todo = [] ∧ m'.data = memRead s.hbm a l.n ∧ m'.poison = m.poison) ∧
      (∀ v, (mOpc m = 0x47 ∨ mOpc m = 0x48) → atomicValue m (leNat (memRead s.hbm a l.n)) = some v → ∃ u, exec .homeAccessPerform s = .next u ∧
        memRead u.hbm a l.n = leBytes l.n v ∧ (∀ y, y < a ∨ a + l.n ≤ y → memByte u.hbm y = memByte s.hbm y) ∧
        ∃ m', u.entry? e k = some m' ∧ m'.st = .performed ∧ m'.todo = [] ∧ m'.out0 = BitVec.ofNat 64 (leNat (memRead s.hbm a l.n)))) ∧
    (answerable s e m = true → ∃ u, exec .memoryEntryAnswer s = .next u ∧ u.entry? e k = none ∧ u.hbm = s.hbm ∧
      (m.dead = true → ∀ d, vget (u.ctxOf e m.x).fifo d [] = vget (s.ctxOf e m.x).fifo d []) ∧
      (m.dead = false → mStale s e m = true → (u.clusterOf cl).stalecnt = (s.clusterOf cl).stalecnt + 1 ∧
        ∀ d, vget (u.ctxOf e m.x).fifo d [] = vget (s.ctxOf e m.x).fifo d []) ∧
      (m.dead = false → mStale s e m = false → m.x < 4 → (∀ r ∈ entryResults s e m, r.tok.kind ≠ .kill ∧ r.tok.kind ≠ .commit) →
        ∀ d, d < 14 → vget (u.ctxOf e m.x).fifo d [] = vget (s.ctxOf e m.x).fifo d [] ++
          ((entryResults s e m).filter (fun r => r.dest == d && !staleTok s cl (s.ctxOf e m.x).plid r.tok)).map (·.tok))) ∧
    (m.st = .sent → (∃ l ∈ m.lines, poolThere s l.loc = false) → ∃ u, exec .poolAccessReturn s = .next u ∧
      u.entry? e k = some { m with st := .translated } ∧ u.hbm = s.hbm) ∧
    (m.st = .sent → mOpc m = 0x57 → let ec := (s.ctxOf e m.x).evcl
      ∃ u, exec .remoteEventOp s = .next u ∧ u.entry? e k = some { m with st := .performed } ∧
        (∀ b, b < 256 → eventBit u ec b = if b = field m.attr 0 8 then
          (if field m.attr 8 2 = 0 then true else if field m.attr 8 2 = 1 then false else !eventBit s ec b) else eventBit s ec b)) ∧
    (remoteMet s e m = true → let ec := (s.ctxOf e m.x).evcl
      ∃ u, exec .remoteEvwaitMet s = .next u ∧ u.entry? e k = some { m with st := .performed } ∧
        (bit m.attr 8 = true → ∀ b, b < 256 → eventBit u ec b = (eventBit s ec b && b != field m.attr 0 8)) ∧
        (bit m.attr 8 = false → u.seqs = s.seqs))

/-- R74, R286, R290, R291, R295, R333, R392: a copy engine accepts a command, drops one that is stale, reads and writes its pieces, in any order, stops on the first fault
with its record, and ends with its completion on the return route; and the Reeve's notice of a SIGOP. A write is stated here for a local HBM destination and a frame that does
not log. Where it goes beyond the rules' words it rests on the model's choices in log entries 42, 80, 133. -/
def Obligations.CopyEngineEvents : Prop :=
  ∀ (s : State), let c := s.arg.c
    (∀ t, let e := s.arg.e
      let x := s.arg.x
      let r := s.arg.r
      let k := s.ctxOf e x
      let cl := rtPLOT (vget k.routes r 0) / 4
      e < 9216 → x < 4 → ceHead s e x r = some t → ceAccepts s e x r = true →
      (staleTok s (clusterOfElem e) k.plid t = false → t.kind ≠ .poison → ∃ u y, exec .ceCommandAccept s = .next u ∧
        (u.clusterOf cl).ce = (s.clusterOf cl).ce ++ [y] ∧ vget (u.ctxOf e x).fifo r [] = (vget k.fifo r []).tail ∧ y.pos = 0 ∧ y.plid = k.plid ∧
        y.sender = some (k.vp, k.el) ∧ y.spec = t.spec.toNat ∧ y.words = wordsOf 8 ((t.tile.getD []).take 64)) ∧
      (staleTok s (clusterOfElem e) k.plid t = false → t.kind = .poison → ∃ u, exec .ceCommandAccept s = .next u ∧
        (∀ i, (u.clusterOf i).ce = (s.clusterOf i).ce) ∧ vget (u.ctxOf e x).fifo r [] = (vget k.fifo r []).tail) ∧
      (staleTok s (clusterOfElem e) k.plid t = true → ∃ u, exec .ceCommandAccept s = .next u ∧
        (∀ i, (u.clusterOf i).ce = (s.clusterOf i).ce) ∧ vget (u.ctxOf e x).fifo r [] = (vget k.fifo r []).tail ∧
        (u.clusterOf (clusterOfElem e)).stalecnt = (s.clusterOf (clusterOfElem e)).stalecnt + 1)) ∧
    (∀ (y : CeCmd) (root : Word × Nat), let n := s.arg.n
      let p := cyPiece y n
      let ps := cySource y n
      let due := cyCopied y = false ∧ y.getting = none ∧ n ∈ cyPieces y ∧ n ∉ y.done
      let reads := due ∧ Tab.get? y.read n = none ∧ walkNeeded s (cyAccess c y .read) none c root ps = none ∧
        (∀ l ∈ cyLines s c y root ps, poolThere s l.loc = true)
      let got := if y.reading = n then y.got else []
      c < 576 → (s.clusterOf c).ce.find? (fun y => y.id == s.arg.k) = some y → cyGoesOn s c y = true → y.root = some root →
      (cyUnstarted s c y = true → ∃ u, exec .ceCommandEnd s = .next u ∧ u.hbm = s.hbm ∧
        (u.clusterOf c).ce = (s.clusterOf c).ce.filter (fun z => z.id != y.id) ∧ (u.clusterOf c).stalecnt = (s.clusterOf c).stalecnt + 1) ∧
      (cyUnstarted s c y = false →
        (∀ code va, reads → gatherLines s (cyAccess c y .read) c none root got ps = .err code va → ∃ u, exec .ceCommandEnd s = .next u ∧ u.hbm = s.hbm ∧
          (u.clusterOf c).ce = (s.clusterOf c).ce.map (fun w => if w.id = y.id then { w with code := code, fva := va, read := [] } else w) ∧
          (y.sender ≠ none → let home := (s.frameOf y.plid y.tag.frame.toNat).home
            ∃ w, (u.clusterOf home).recq = (s.clusterOf home).recq ++ [w] ∧ w.kind = 5 ∧ w.code = code ∧ w.fval = word va ∧ w.paya = word (cyCOOKIE y))) ∧
        (∀ bs ls, reads → gatherLines s (cyAccess c y .read) c none root got ps = .ok bs ls → ∃ u, exec .ceCommandEnd s = .next u ∧ u.hbm = s.hbm ∧
          ∃ w ∈ (u.clusterOf c).ce, w.id = y.id ∧ Tab.get? w.read n = some bs ∧ w.pos = y.pos ∧ w.done = y.done ∧ w.code = y.code) ∧
        (∀ (bs : List Byte) (ln : Line) (lf : Leaf) (a : Nat), due → Tab.get? y.read n = some bs → bs.length = p.2.2 →
          walkNeeded s (cyAccess c y .write) none c root [(p.2.1, p.2.2)] = none →
          translateLine s (cyAccess c y .write) none c root p.2.1 p.2.2 = .ok (ln, lf) → ln.loc = .hbm a →
          lostFor s (cyAccess c y .write) c (.hbm a) = false → hbmOk s ln.key a bs.length = true → a / 128 ∉ s.guest.copies →
          lineHeldBut s (cyHolds c y) (.hbm a) = false → memWf s.hbm = true → (y.sender = none ∨ (s.frameOf y.plid y.tag.frame.toNat).log.mode = 0) →
          ∃ u, exec .ceCommandEnd s = .next u ∧ memRead u.hbm a bs.length = bs ∧ (∀ v, v < a ∨ a + bs.length ≤ v → memByte u.hbm v = memByte s.hbm v) ∧
            ∃ w ∈ (u.clusterOf c).ce, w.id = y.id ∧ w.pos = y.pos + bs.length ∧ w.done = y.done ++ [n] ∧ w.code = y.code) ∧
        (cyCopied y = true → (y.signal = false ∨ y.code ≠ 0 ∨ y.signaled = true) → cyReturns s c y = true → y.queue = none →
          ∃ u, exec .ceCommandEnd s = .next u ∧ u.hbm = s.hbm ∧ (∀ w ∈ (u.clusterOf c).ce, w.id ≠ y.id) ∧
            ∀ vp el e x, y.sender = some (vp, el) → holderOf s y.plid vp el = some (e, x) → x < 4 → staleTok s c y.plid y.tag = false →
              cyRET y < 14 → vget (u.ctxOf e x).fifo (cyRET y) [] = vget (s.ctxOf e x).fifo (cyRET y) [] ++ [cyCompletion y]))) ∧
    (∀ v rest, s.notices = v :: rest → ∃ u, exec .sigopNotice s = .next u ∧ u = { s with notices := rest, out := s.out ++ [.msix v] })

/-- R296 to R300, R302, R304, R305, R308: the queue commands, the wake record, the issue of the next packet, and the end of a blocking condition. Where it goes beyond the rules' words it rests on the model's choices in log entries 45, 46, 49, 50, 56, 134. -/
def Obligations.QueueEvents : Prop :=
  ∀ (s : State), let q := s.arg.q
    let k := s.queueOf q
    (q < 4096 →
      (k.st = .disabled → descriptorOk k = true → ∃ u, exec .queueEnable s = .next u ∧ (u.queueOf q).st = .active ∧ (u.queueOf q).ridx = k.ridx ∧
        (∀ q', q' ≠ q → u.queueOf q' = s.queueOf q')) ∧
      (k.st = .disabled → descriptorOk k = false → ∃ u, exec .queueEnable s = .next u ∧ (u.queueOf q).st = .disabled ∧
        (vget (u.queueOf q).errec 0 0).toNat % 256 = 3) ∧
      (∃ u, exec .queueDisable s = .next u ∧ (u.queueOf q).st = (if k.st = .active ∨ k.st = .blocked then .disabled else k.st) ∧
        (u.queueOf q).going = k.going ∧ (u.queueOf q).ridx = k.ridx) ∧
      (∃ u, exec .queueReset s = .next u ∧ (k.st = .disabled ∨ k.st = .error →
        u.queueOf q = { k with st := .disabled, ridx := 0, widx := 0, errec := Vector.replicate 8 0 }) ∧
        (k.st = .active ∨ k.st = .blocked → u.queueOf q = k)) ∧
      (∃ u, exec .queueSeal s = .next u ∧ { u.queueOf q with cap := k.cap } = k ∧
        (vget (u.queueOf q).cap 0 0).toNat + (vget (u.queueOf q).cap 1 0).toNat * 2 ^ 64 + (vget (u.queueOf q).cap 2 0).toNat * 2 ^ 128 =
          capBody q k % 2 ^ 192 ∧
        vget (u.queueOf q).cap 3 0 = BitVec.ofNat 64 (capMac s (capBody q k)))) ∧
    (let bs := s.arg.bytes
     let w := leAt bs 0 32 / 2 ^ 144 % 2 ^ 12
     let n := BitVec.ofNat 64 (leAt bs 32 8)
     let ahead := (n - (s.queueOf w).widx).toNat
     (s.dev.boot = 2 → exec .wakeRecord s = .next s) ∧
     (s.dev.boot ≠ 2 → wakeValid s bs s.arg.k s.arg.n = false → ∃ u, exec .wakeRecord s = .next u ∧ u.queues = s.queues ∧
       Tab.getD u.dev.counters 0 0 = Tab.getD s.dev.counters 0 0 + 1) ∧
     (s.dev.boot ≠ 2 → wakeValid s bs s.arg.k s.arg.n = true →
       (1 ≤ ahead → ahead < 2 ^ 63 → (n - (s.queueOf w).ridx).toNat ≤ 2 ^ (s.queueOf w).log2n → ∃ u, exec .wakeRecord s = .next u ∧ (u.queueOf w).widx = n ∧
         (u.queueOf w).st = (s.queueOf w).st ∧ (∀ q', q' ≠ w → u.queueOf q' = s.queueOf q')) ∧
       (1 ≤ ahead → ahead < 2 ^ 63 → 2 ^ (s.queueOf w).log2n < (n - (s.queueOf w).ridx).toNat → ∃ u, exec .wakeRecord s = .next u ∧
         (u.queueOf w).st = .error ∧ (vget (u.queueOf w).errec 0 0).toNat % 256 = 7 ∧ u.out = s.out ++ [.msix (s.queueOf w).evec]) ∧
       (ahead = 0 ∨ 2 ^ 63 ≤ ahead → ∃ u, exec .wakeRecord s = .next u ∧ u.queueOf w = { s.queueOf w with stalew := (s.queueOf w).stalew + 1 }))) ∧
    (∀ (w : Nat) (aged : Bool), chooseQueue s = some (w, aged) →
      (∀ b, fetchPacket s (s.queueOf w) = .ok b → validate (s.queueOf w) b = none → ∃ u p, exec .packetIssue s = .next u ∧ (u.queueOf w).cur = some p ∧
        p.bytes = b ∧ p.root = ((s.queueOf w).ptbase, (s.queueOf w).asid) ∧ p.idx = (s.queueOf w).ridx.toNat ∧ (u.queueOf w).ridx = (s.queueOf w).ridx ∧
        u.agenda = s.agenda ++ [.event (packetEvent b) { q := w, k := p.id }] ∧ u.hbm = s.hbm) ∧
      (∀ b code off val, (s.queueOf w).st = .active → fetchPacket s (s.queueOf w) = .ok b → validate (s.queueOf w) b = some (code, off, val) →
        ∃ u, exec .packetIssue s = .next u ∧ (u.queueOf w).st = .error ∧ (u.queueOf w).ridx = (s.queueOf w).ridx ∧ u.agenda = s.agenda ∧
          (code < 256 → (vget (u.queueOf w).errec 0 0).toNat % 256 = code) ∧ u.out = s.out ++ [.msix (s.queueOf w).evec]) ∧
      (∀ c, (s.queueOf w).st = .active → fetchPacket s (s.queueOf w) = .error c → ∃ u, exec .packetIssue s = .next u ∧ (u.queueOf w).st = .error ∧
        (u.queueOf w).ridx = (s.queueOf w).ridx ∧ u.agenda = s.agenda ∧ (vget (u.queueOf w).errec 0 0).toNat % 256 = 9 ∧
        u.out = s.out ++ [.msix (s.queueOf w).evec])) ∧
    (∀ p, q < 4096 → k.cur = some p → k.st = .blocked → mayIssue k = true → ∃ u, exec .queueUnblock s = .next u ∧
      u.queueOf q = { k with st := .active } ∧ u.agenda = s.agenda ++ [.event (packetEvent p.bytes) { q := q, k := p.id }])

/-! Packets of host queues (R302, R303, R314, R340, R348, R355, R374) -/

/-- A packet of a queue as it stands right after its issue. -/
def justIssued (s : State) (p : Packet) (w : GoWait) : Going :=
  { pkt := p, wait := w, data := [], got := [], getting := none, issued := s.reeveCyc, plid := none, frame := none }

/-- R302, R303, R314, R340, R374: what the issue of each packet of a queue does. Where it goes beyond the rules' words it rests on the model's choices in log entries 53, 54, 57. -/
def Obligations.PacketsAtIssue : Prop :=
  ∀ (s : State) (p : Packet), let q := s.arg.q
    let k := s.queueOf q
    let b := p.bytes
    let P := leAt b 8 2
    let done := fun (u : State) => (u.queueOf q).ridx = k.ridx + 1 ∧ (u.queueOf q).going = k.going ∧ (u.queueOf q).cur = none ∧
      u.out = s.out ++ (if leAt b 1 1 / 2 % 2 = 1 then [.msix (leAt b 2 2 % 2 ^ 11)] else [])
    let issued := fun (u : State) => (u.queueOf q).ridx = k.ridx + 1 ∧ (u.queueOf q).cur = none
    let acc := pktAccess q p.id
    q < 4096 → k.cur = some p → s.arg.k = p.id → goOf s q p.id = none → (k.st = .active ∨ k.st = .blocked) → owed s (.queue q p.id) = false →
    (∀ i, i ∈ [Instr.nopPacket, .signal] →
      (pkSOP b = 0 → ∃ u, exec i s = .next u ∧ done u ∧ u.hbm = s.hbm) ∧
      (∀ ln lf a, pkSOP b ≠ 0 → walkNeeded s (acc .atomic) none reeveCl p.root [(pkSVA b, 8)] = none →
        translateLine s (acc .atomic) none reeveCl p.root (pkSVA b) 8 = .ok (ln, lf) → ln.loc = .hbm a →
        a % 128 + 8 ≤ 128 → lostFor s (acc .atomic) reeveCl (.hbm a) = false → hbmOk s ln.key a 8 = true → a / 128 ∉ s.guest.copies →
        lineHeld s (.hbm a) = false → memWf s.hbm = true →
        let old := BitVec.ofNat 64 (leNat (memRead s.hbm a 8))
        let v := BitVec.ofNat 64 (leAt b 56 8)
        ∃ u, exec i s = .next u ∧ done u ∧
          memRead u.hbm a 8 = leBytes 8 (if pkSOP b = 1 then v else if pkSOP b = 2 then old + v else old - v).toNat ∧
          ∀ y, y < a ∨ a + 8 ≤ y → memByte u.hbm y = memByte s.hbm y)) ∧
    (k.going = [] → pkSOP b = 0 → ∃ u, exec .barrier s = .next u ∧ done u) ∧
    (k.going ≠ [] → ∃ u, exec .barrier s = .next u ∧ (u.queueOf q).st = .blocked ∧ (u.queueOf q).cur = some p ∧ (u.queueOf q).ridx = k.ridx) ∧
    (∃ u, exec .waitsig s = .next u ∧ issued u ∧ (u.queueOf q).st = .blocked ∧ (u.queueOf q).going = k.going ++ [justIssued s p .waitsig]) ∧
    (let c := leAt b 4 2 / 128 % 8 * 96 + leAt b 4 2 % 128
     (s.clusterOf c).ce.countP (fun y => !cyStaged s y) < 256 → ∃ u y, exec .copyPacket s = .next u ∧ issued u ∧ (u.clusterOf c).ce = (s.clusterOf c).ce ++ [y] ∧
       y.queue = some (q, p.id) ∧ y.root = some p.root ∧ cySRC y = leAt b 8 8 % 2 ^ 58 ∧ cyDST y = leAt b 16 8 % 2 ^ 58 ∧ y.pos = 0) ∧
    (∀ (h bs : List Byte) (ls ls' : List Leaf) (m : List (Nat × Nat)) (n : Nat), let va := leAt b 8 8 % 2 ^ 58
      pkOPC b = 5 → walkNeeded s (acc .read) none reeveCl p.root (splitLines 65 va 64) = none →
      gatherLines s (acc .read) reeveCl none p.root [] (splitLines 65 va 64) = .ok h ls → headerOk h = true →
      inRange k va (imSIZE h) = true → walkNeeded s (acc .read) none reeveCl p.root (splitLines (imSIZE h + 1) va (imSIZE h)) = none →
      gatherLines s (acc .read) reeveCl none p.root [] (splitLines (imSIZE h + 1) va (imSIZE h)) = .ok bs ls' → imageFault bs = none →
      s.pa = none → placeImage s bs (leAt b 4 1 / 2 % 2 == 1) = some m → freePlid s = some n →
      ∃ u pl g, exec .gloadPacket s = .next u ∧ u.placeOf n = some pl ∧ pl.map = m.map some ∧ pl.root = some p.root ∧ issued u ∧
        goOf u q p.id = some g ∧ g.wait = .op (.filling 0 n (statusWord stOK 0 n))) ∧
    (∀ pl, pkOPC b = 6 → P < 2 ^ 14 → s.placeOf P = some pl → pl.root = some p.root → pl.moving = none → pl.saving = [] →
      beingFilled s P = false → (∀ f ∈ pl.frames, f.2.st = .free) → placementEmpty s P = true → ∃ u, exec .gevictPacket s = .next u ∧ u.placeOf P = none ∧
        ∀ y, y ≠ P → u.placeOf y = s.placeOf y) ∧
    (∀ pl, pkOPC b = 0xA → P < 2 ^ 14 → leAt b 4 1 < 8 → s.placeOf P = some pl →
      (pl.root = some p.root → ∃ u pl', exec .prioPacket s = .next u ∧ u.placeOf P = some pl' ∧ pl'.prio = some (leAt b 4 1)) ∧
      (pl.root ≠ some p.root → ∃ u, exec .prioPacket s = .next u ∧ (u.queueOf q).st = .error ∧ u.places = s.places)) ∧
    (∀ (pl : Placement) (c bb : Nat), let nm := rbName b
      let Q := namePLID nm
      let f := nameFRAME nm
      Tab.get? s.rings (rbRING b) = none → walkNeeded s (acc .read) none reeveCl p.root (rbLines b) = none →
      ringRange s q (justIssued s p (.op .again)) = .ok (c, bb) → s.placeOf Q = some pl → pl.root = some p.root →
      ((s.frameOf Q f).st = .opened ∨ (s.frameOf Q f).st = .running) → field nm 24 6 < pl.entries.length →
      ∃ u r, exec .ringbindBind s = .next u ∧ Tab.get? u.rings (rbRING b) = some r ∧ r.cl = c ∧ r.ctl = bb ∧ r.plid = Q ∧ r.frame = f ∧
        r.entry = field nm 24 6 ∧ r.lg = rbLOG2 b ∧ (u.frameOf Q f).ringHolds = (s.frameOf Q f).ringHolds + 1) ∧
    (∀ r, Tab.get? s.rings (rbRING b) = some r → r.unbinding = none → r.pendingArrive = [] → ∃ u, exec .ringbindUnbind s = .next u ∧
      Tab.get? u.rings (rbRING b) = none ∧ (u.frameOf r.plid r.frame).ringHolds = (s.frameOf r.plid r.frame).ringHolds - 1) ∧
    (leAt b 1 1 % 2 = 1 → (k.going.any (fun g => pkOPC g.pkt.bytes == 1)) = true → ∃ u, exec .launch s = .next u ∧ (u.queueOf q).st = .blocked ∧
      (u.queueOf q).cur = some p ∧ (u.queueOf q).ridx = k.ridx ∧ u.places = s.places) ∧
    (∀ (i : Instr) (op : State → Going → OpResult) (pl : Placement), let g := justIssued s p (.op .again)
      let s1 := issuePkt s q p (.op .again)
      let Q := namePLID (dbName b)
      pkOPC b = 9 → s.placeOf Q = some pl →
      (i, op) ∈ [(.debugPause, dbFstep 1), (.debugResume, dbFstep 2), (.debugStep, dbFstep 0), (.debugWmark, dbWmark), (.debugRwin, dbRwin),
        (.debugRstep, dbRstep), (Instr.debugWretire, dbWretire)] →
      (pl.root ≠ some p.root → ∃ u, exec i s = .next u ∧ (u.queueOf q).st = .error ∧ u.places = s.places) ∧
      (pl.root = some p.root → exec i s = .next (match op s1 g with
        | .done t st => storeStatus t q g st
        | .wait t w => waitFor t q p.id (.op w))))

/-- R299, R302, R303, R348, R349, R355: what an issued packet does when it goes on: a WAITSIG whose condition holds, a GLOAD whose contexts have been written, and a
launch that enters its last argument, gets its log ring, gives up, ends, or evicts a plot for its room; and the restore of an evicted plot. Where it goes beyond the rules' words it rests on the model's choices in log entries 20, 48, 55. -/
def Obligations.PacketsThatWait : Prop :=
  ∀ (s : State) (g : Going), let q := s.arg.q
    let b := g.pkt.bytes
    q < 4096 → goOf s q s.arg.k = some g → owed s (.queue q g.pkt.id) = false →
    let acc := pktAccess q g.pkt.id
    let left' := fun (u : State) => goOf u q s.arg.k = none ∧ (u.queueOf q).ridx = (s.queueOf q).ridx
    (∀ bs ls, g.wait = .waitsig → g.getting = none → g.plid = none →
      walkNeeded s (acc .read) none reeveCl g.pkt.root (splitLines 9 (leAt b 8 8) 8) = none →
      gatherLines s { acc .read with plain := true } reeveCl none g.pkt.root g.got (splitLines 9 (leAt b 8 8) 8) = .ok bs ls →
      (condHolds (leAt b 4 1) (BitVec.ofNat 64 (leNat bs)) (BitVec.ofNat 64 (leAt b 16 8)) = true → pkSOP b = 0 →
        ∃ u, exec .waitsigSatisfied s = .next u ∧ left' u) ∧
      (condHolds (leAt b 4 1) (BitVec.ofNat 64 (leNat bs)) (BitVec.ofNat 64 (leAt b 16 8)) = false →
        ∃ u h, exec .waitsigSatisfied s = .next u ∧ goOf u q s.arg.k = some h ∧ h.wait = .waitsig ∧ u.hbm = s.hbm)) ∧
    (∀ z n st ln lf a, pkOPC b = 5 → g.wait = .op (.filling z n st) → g.plid = none →
      (beingFilled s n = true → exec .gloadPacket s = .next s) ∧
      (beingFilled s n = false → pkSOP b = 0 → walkNeeded s (acc .write) none reeveCl g.pkt.root [(leAt b 16 8, 8)] = none →
        translateLine s (acc .write) none reeveCl g.pkt.root (leAt b 16 8) 8 = .ok (ln, lf) → ln.loc = .hbm a → lineHeld s (.hbm a) = false →
        a % 128 + 8 ≤ 128 → lostFor s (reeveAccess .write) reeveCl (.hbm a) = false → hbmOk s ln.key a 8 = true → a / 128 ∉ s.guest.copies → memWf s.hbm = true →
        ∃ u, exec .gloadPacket s = .next u ∧ left' u ∧ memRead u.hbm a 8 = leBytes 8 st.toNat ∧
          ∀ y, y < a ∨ a + 8 ≤ y → memByte u.hbm y = memByte s.hbm y)) ∧
    (∀ (pl : Placement) (t : State) (n p f : Nat), let a := lnArg g.data n
      let w := pl.entries.getD (field a.1 24 6) 0
      g.wait = .inject n → g.plid = some p → g.frame = some f → lnNARG b = n + 1 → s.placeOf p = some pl → (s.frameOf p f).st = .opened →
      inject s p (entVelem w) (chanEntry (field a.1 24 6)) (tinjToken s p f a.1 a.2 (entPORT w) none) = .taken t →
      ∃ u, exec .launch s = .next u ∧ (u.frameOf p f).hold = false ∧ ((t.frameOf p f).st = .opened → (u.frameOf p f).st = .running) ∧
        ∃ h, goOf u q s.arg.k = some h ∧ h.wait = .launch) ∧
    (∀ p f a, g.wait = .ring → g.plid = some p → g.frame = some f → s.placeOf p ≠ none → lnMODE b ≠ 0 → poolRing s (lnLOG2 b) = some a →
      ∃ u, exec .launchRetry s = .next u ∧ (u.frameOf p f).log.mode = lnMODE b ∧ (u.frameOf p f).log.base = a ∧
        (u.frameOf p f).log.lg = lnLOG2 b ∧ (u.frameOf p f).log.pooled = true) ∧
    ((∃ tries since, g.wait = .place tries since ∨ g.wait = .compact tries) → g.plid = none → ((s.queueOf q).st = .active ∨ (s.queueOf q).st = .blocked) →
      ∃ u, exec .launchBudgetExpiry s = .next u ∧ left' u ∧ (u.queueOf q).st = .error ∧ u.places = s.places ∧
        (vget (u.queueOf q).errec 0 0).toNat % 256 = 9 ∧ (vget (u.queueOf q).errec 0 0).toNat / 2 ^ 16 % 256 = 0x14) ∧
    (∀ p f, g.wait = .launch → g.plid = some p → g.frame = some f → (s.frameOf p f).launch ≠ none → (s.frameOf p f).st ≠ .free → pkIMG b = false →
      (s.arg.ok = true → pkSOP b = 0 → ∃ u, exec .launchCompletion s = .next u ∧ left' u ∧ (u.frameOf p f).st = .free) ∧
      (s.arg.ok = false → ((s.queueOf q).st = .active ∨ (s.queueOf q).st = .blocked) → ∃ u, exec .launchCompletion s = .next u ∧ left' u ∧
        (u.queueOf q).st = .error ∧ (vget (u.queueOf q).errec 0 0).toNat % 256 = 8)) ∧
    (∀ (pl : Placement) (pc : Nat × Nat) (tries p v : Nat) (skipped : List (Nat × Nat)), g.wait = .evict tries p v skipped → s.placeOf p = some pl →
      plotContext pl v = some pc → pc.2 < 4 → (∀ w ∈ pl.saving, w.1 ≠ v) → pl.moving = none → evictionBegins s p v = true →
      (s.pa ≠ none ∨ placeImage s g.data (lnONEDIE b) = none) →
      ∃ u, exec .evictionSave s = .next u ∧ u.queues = s.queues ∧ u.placeOf p = some { pl with saving := pl.saving ++ [(v, none)] } ∧
        ∀ e, e < 4 → (u.ctxOf (4 * pc.1 + e) pc.2).st = .draining) ∧
    (s.pa ≠ none ∨ s.restored = s.releases → exec .evictedPlotRestore s = .next s) ∧
    (∀ (r : Nat × Saved) (pl : Placement) (t : State), s.pa = none → s.restored ≠ s.releases → evictedPlots s = [r] → s.placeOf r.1 = some pl →
      r.2.filling = none → (∃ k ∈ r.2.evicted, k.2 < s.releases) → tryRestore s r.1 pl r.2 r.2.addr none = .ok t →
      exec .evictedPlotRestore s = .next { t with restored := s.releases })

/-! Events of the package's edges (R391 to R449) -/

/-- R246, R391, R392, R398 to R404, R408, R415, R418, R450: what arrives over the Krydeoft fabric, the answers to this package's requests, credit, the states of the
links, and a beat in error on a bridge. An answer is stated for a port that is UP, holds nothing and has credit for it. Where it goes beyond the rules' words it rests on the model's choices in log entries 72, 73, 74, 76, 77, 78, 80, 111. -/
def Obligations.KrydeoftEvents : Prop :=
  ∀ (s : State) (p : KPacket), let n := s.arg.n
    let a := p.addr % 2 ^ 46
    let len := 2 ^ min p.lg2 8
    let k := kportOf s (nextPort s p.src)
    let answered := fun (u : State) (type status nd : Nat) (P : List Byte → Prop) => (k.st = .up → k.held = [] → nd ≤ vget k.credits 1 0 + k.shared →
      ∃ r : KPacket, u.out = s.out ++ [.krydeoft (nextPort s p.src) r] ∧ r.type = type ∧ r.status = status ∧ r.rid = p.rid ∧ r.dst = p.src ∧
        r.src = ownPeer s ∧ P r.data)
    let one := a / 128 = (a + len - 1) / 128 ∧ hbmOk s p.key a len = true ∧ memWf s.hbm = true ∧ lineBusy s true a len = none
    n < 24 →
    (s.arg.pkt = some p → p.dst = ownPeer s →
      (pktHome s p = true →
        (lineBusy s false a len = none → hbmOk s p.key a len = true → ∃ u, exec .krydeoftRead s = .next u ∧ u.hbm = s.hbm ∧
          (answerLost s n a = false → answered u 0x10 0 5 (fun d => d = memRead s.hbm a len)) ∧ (answerLost s n a = true → answered u 0x10 1 1 (fun d => d = []))) ∧
        (∀ line, lineBusy s false a len = some line → ∃ u, exec .krydeoftRead s = .next u ∧ u.out = s.out ∧
          u.stalled = s.stalled ++ [(line, .event .krydeoftRead s.arg)]) ∧
        (lineBusy s false a len = none → hbmOk s p.key a len = false → ∃ u, exec .krydeoftRead s = .next u ∧ answered u 0x10 1 1 (fun d => d = []) ∧ u.hbm = s.hbm) ∧
        (one → ∃ u, exec .krydeoftWrite s = .next u ∧ answered u 0x11 0 1 (fun d => d = []) ∧
          (∀ i, i < len → memByte u.hbm (a + i) = p.data.getD i 0) ∧ (∀ y, y < a ∨ a + len ≤ y → memByte u.hbm y = memByte s.hbm y)) ∧
        (∀ v, one → answerLost s n a = false → pktAtomic p (leNat (memRead s.hbm a len)) = some v → ∃ u, exec .krydeoftAtomic s = .next u ∧
          answered u 0x10 0 5 (fun d => d = memRead s.hbm a len) ∧ memRead u.hbm a len = leBytes len v ∧
          (∀ y, y < a ∨ a + len ≤ y → memByte u.hbm y = memByte s.hbm y)) ∧
        (one → p.mask = [ownPeer s] → copyAdmitted s p = true → ∃ u, exec .krydeoftMcwrite s = .next u ∧ answered u 0x12 0 3 (fun _ => True) ∧
          (∀ i, i < len → memByte u.hbm (a + i) = p.data.getD i 0) ∧ (∀ y, y < a ∨ a + len ≤ y → memByte u.hbm y = memByte s.hbm y))) ∧
      (pktHome s p = false → ∃ u u' u'', exec .krydeoftRead s = .next u ∧ answered u 0x10 2 1 (fun d => d = []) ∧ exec .krydeoftWrite s = .next u' ∧
        answered u' 0x11 2 1 (fun d => d = []) ∧ exec .krydeoftAtomic s = .next u'' ∧ answered u'' 0x10 2 1 (fun d => d = []) ∧ u.hbm = s.hbm ∧
        u'.hbm = s.hbm ∧ u''.hbm = s.hbm) ∧
      (∀ (r : Remote) (e i : Nat) (m : MemEntry), s.remotes.find? (fun r => r.rid == p.rid && !r.mc) = some r → r.owner = .entry e i → s.entry? e i = some m →
        p.status = 0 → mLoad m = true → ∃ u m', exec .krydeoftRdata s = .next u ∧ (∀ x ∈ u.remotes, x.rid ≠ p.rid) ∧ u.entry? e i = some m' ∧
          (p.tag = packetTag s r.key r.addr p.data → m'.data = spliceBytes m.data r.off p.data ∧ m'.poison = m.poison) ∧
          (p.tag ≠ packetTag s r.key r.addr p.data → m'.poison = max 1 m.poison)) ∧
      (∀ (r : Remote) (e i : Nat) (m : MemEntry), s.remotes.find? (fun r => r.rid == p.rid && !r.mc) = some r → r.owner = .entry e i → s.entry? e i = some m →
        mStore m = true → ∃ u m', exec .krydeoftWack s = .next u ∧ (∀ x ∈ u.remotes, x.rid ≠ p.rid) ∧ u.entry? e i = some m' ∧
          (p.status = 0 → m'.poison = m.poison) ∧ (p.status ≠ 0 → m'.poison = 2)) ∧
      (∃ u, exec .krydeoftMack s = .next u ∧ ∀ x ∈ u.remotes, x ∈ s.remotes ∧ ¬ (x.rid = p.rid ∧ x.mc = true ∧ x.peer ∈ (bitmapOf p.data).map (·.1)))) ∧
    (s.arg.pkt = some p → (kportOf s n).held = [] → p.vc < 4 → ∃ u, exec .krydeoftCredit s = .next u ∧
      let old := vget (kportOf s n).credits p.vc 0
      vget (kportOf u n).credits p.vc 0 = old + min s.arg.k (8 - old) ∧ (kportOf u n).shared = (kportOf s n).shared + (s.arg.k - min s.arg.k (8 - old)) ∧
        u.out = s.out) ∧
    (s.arg.link = none → exec .krydeoftLink s = .next s) ∧
    (∀ l, s.arg.link = some l → let s1 := { s with links := s.links.filter (fun m => !sameLink l m) ++ [l] }
      ∃ u, exec .krydeoftLink s = .next u ∧ u.links = s1.links ∧
        ∀ x, x < 512 → Tab.getD u.dev.domain x 0 = routeWord (routes s1) x (Tab.getD s.dev.domain x 0)) ∧
    (∃ u, exec .remoteRequestTimeout s = .next u ∧ (∀ r e i, s.remotes.find? (fun r => r.rid == s.arg.k && !r.mc) = some r → r.owner = .entry e i →
      ∀ x ∈ u.remotes, x.rid ≠ s.arg.k)) ∧
    (∃ u, exec .mcstPeerTimeout s = .next u ∧ ∀ x ∈ u.remotes, x ∈ s.remotes ∧ ¬ (x.rid = s.arg.k ∧ x.mc = true ∧ x.peer = s.arg.p)) ∧
    (∃ u, exec .krydeoftPortEnable s = .next u ∧ kportOf u n = { kportOf s n with
      ena := true, st := if (kportOf s n).st = .down then .training else (kportOf s n).st }) ∧
    (∃ u, exec .krydeoftPortDisable s = .next u ∧ kportOf u n = { kportOf s n with
      ena := false, st := if (kportOf s n).st = .up then .fencing else if (kportOf s n).st = .fenced then .down else (kportOf s n).st }) ∧
    ((kportOf s n).st = .training →
      (s.arg.ok = true → 4 ≤ s.arg.k → 32 ≤ s.arg.q → ∃ u, exec .linkTrained s = .next u ∧ (kportOf u n).st = .up ∧
        (kportOf u n).lanes = (if 8 ≤ s.arg.k then 8 else 4)) ∧
      (s.arg.ok = false → ∃ u, exec .linkTrained s = .next u ∧ (kportOf u n).st = .fencing ∧
        ((kportOf s n).held = [] → kportOf u n = { kportOf s n with st := .fencing }) ∧
        ∀ h rest, (kportOf s n).held = h :: rest → hasCredit { kportOf s n with st := .fencing } h = true → Out.krydeoft n h ∈ u.out)) ∧
    ((kportOf s n).st = .up → ∃ u, exec .linkError s = .next u ∧ kportOf u n = { kportOf s n with st := .training, retrn := (kportOf s n).retrn + 1 }) ∧
    ((kportOf s n).st = .fencing →
      ((kportOf s n).held = [] → ∃ u, exec .fencingDrained s = .next u ∧ (kportOf u n).st = (if (kportOf s n).ena then .fenced else .down)) ∧
      (∃ u, exec .fencingTimeout s = .next u ∧ (kportOf u n).st = (if (kportOf s n).ena then .fenced else .down) ∧ (kportOf u n).held = [] ∧
        Tab.getD u.dev.counters (0x0300 + 8 * n) 0 = Tab.getD s.dev.counters (0x0300 + 8 * n) 0 + BitVec.ofNat 64 (kportOf s n).held.length)) ∧
    (let o := beatWho s.arg
     let e := s.arg.e
     let x := s.arg.x
     let r := s.arg.r
     let added := fun (u : State) (b : Nat) => Tab.getD u.dev.counters (b + 8 * n) 0 = Tab.getD s.dev.counters (b + 8 * n) 0 + 1
     n < 7 → e < 9216 → x < 4 →
      (s.arg.beat = .corrected → ∃ u, exec .bridgeBeatError s = .next u ∧ added u 0x00C8 ∧ u.elems = s.elems) ∧
      (s.arg.beat = .retransmitted → beatUnderWay s o n = true → beatTries s o n < 4 → ∃ u, exec .bridgeBeatError s = .next u ∧ added u 0x0100 ∧
        u.elems = s.elems ∧ beatTries u o n = beatTries s o n + 1) ∧
      (s.arg.beat = .packetLost → beatUnderWay s o n = true → beatTries s o n = 4 → ∃ u, exec .bridgeBeatError s = .next u ∧ added u 0x0138 ∧
        ((∀ d i, o ≠ .entry d i) → beatTries u o n = 5) ∧
        ∀ d i m, o = .entry d i → s.entry? d i = some m → u.entry? d i = some { m with poison := if mLoad m then max 1 m.poison else 2 }) ∧
      (∀ t, s.arg.beat = .streamLost → fifoHead s e x r = some t → let rt := vget (s.ctxOf e x).routes r 0
        rtV rt = true → n ∈ packetBridges (dieOf e) (routeCluster rt / 96) → ∃ u t', exec .bridgeBeatError s = .next u ∧ added u 0x0138 ∧
          vget (u.ctxOf e x).fifo r [] = t' :: (vget (s.ctxOf e x).fifo r []).tail ∧ t'.kind = .poison ∧ t'.frame = t.frame ∧ t'.gen = t.gen ∧
          t'.iter = t.iter ∧ t'.port = t.port))

/-- R419 to R435: the guest engine socket: its port, its packets and their completions, translations, the coherent port, commands and their replies, and breaches, which
fence the port. Where it goes beyond the rules' words it rests on the model's choices in log entries 98, 99, 102, 104, 105. -/
def Obligations.GuestEvents : Prop :=
  ∀ (s : State), let g := s.guest
    let cid := s.arg.k
    let c := guestCtxOf s cid
    let line := s.arg.n % 2 ^ 46 / 128
    let free := lineHeld s (.hbm (line * 128)) = false
    let walked := s.arg.f = 0 ∧ ∀ root, rootOf s c.plid = some root →
      walkNeeded s (guestAccess cid c s.arg.acc) none reeveCl root [(s.arg.v.toNat, 1)] = none
    let ended := fun (u : State) (cause : Nat) => u.guest.st = (if g.ena = false ∧ g.tags = [] then .down else .fenced) ∧ u.guest.cause = cause ∧ u.guest.fences = g.fences + 1 ∧
      u.guest.copies = [] ∧ (∀ t ∈ u.guest.tags, t.2.poison = true) ∧ Out.msix g.fvec ∈ u.out
    (∃ u, exec .guestPortEnable s = .next u ∧ u.guest = { g with ena := true, st := if g.st = .down then .training else g.st }) ∧
    (∃ u, exec .guestPortDisable s = .next u ∧ u.guest.ena = false ∧ (g.st = .active → u.guest.st = (if g.tags = [] then .down else .fenced) ∧ u.guest.cause = 7) ∧
      (g.st = .fenced → u.guest.st = (if g.tags = [] then .down else .fenced)) ∧ (g.st = .training → u.guest.st = .training)) ∧
    (g.st = .training → ∃ u, exec .guestLinkTrained s = .next u ∧ u.guest.st = (if s.arg.ok ∧ s.arg.n = 4 then .active else .down)) ∧
    (∀ (i : Instr) (was next : GuestCst) (m : GuestMsg), cid < 256 → g.st = .active → c.cst = was →
      (i, was, next, m) ∈ [(.guestPause, .run, .pausing, .pause cid), (.guestResume, .paused, .run, .resume cid),
        (.guestSave, .paused, .saving, .save cid g.cmd1), (Instr.guestRestore, .paused, .restoring, .restore cid g.cmd1)] →
      ∃ u, exec i s = .next u ∧ (guestCtxOf u cid).cst = next ∧ (guestCtxOf u cid).lres = 0 ∧ u.guest.out = g.out ++ [m]) ∧
    (∀ (i : Instr) (was : GuestCst), cid < 256 → g.st = .active → c.cst = was → (i, was) ∈ [(.paused, .pausing), (.saved, .saving), (Instr.restored, .restoring)] →
      (i = .saved → s.arg.n ≤ regionSize c.region) → ∃ u, exec i s = .next u ∧ guestCtxOf u cid = { c with cst := .paused, lres := 1 }) ∧
    (∀ (t : Tok) (tag : Nat), let e := s.arg.e
      let x := s.arg.x
      let r := s.arg.r
      let k := s.ctxOf e x
      e < 9216 → x < 4 → gqpHead s e x r = some t → freeTag g = some tag → targetOpen s k r = true →
      staleTok s (clusterOfElem e) k.plid t = false → t.kind ≠ .poison → t.spec = 0 → g.st = .active → (guestCtxOf s (pkCID t)).cst = .run → (s.frameOf k.plid t.frame.toNat).log.mode = 0 →
      ∃ u rt words, exec .gqpAccept s = .next u ∧ Tab.get? u.guest.tags tag = some rt ∧ rt.plid = k.plid ∧ rt.cid = pkCID t ∧ rt.done = none ∧
        u.guest.out = g.out ++ [.gqp tag words] ∧ vget (u.ctxOf e x).fifo r [] = (vget k.fifo r []).tail) ∧
    (∀ t, g.st = .active → tagOpen s s.arg.r = some t → t.cid < 256 → (guestCtxOf s t.cid).cst ≠ .paused →
      ((s.arg.q = 0 ∧ s.arg.c = 0) ∨ (s.arg.q = 1 ∧ 1 ≤ s.arg.c ∧ s.arg.c ≤ 0x15) → ∃ u rt, exec .guestCompletion s = .next u ∧
        Tab.get? u.guest.tags s.arg.r = some rt ∧ rt.done = some (s.arg.q, s.arg.c, BitVec.ofNat 64 (s.arg.v.toNat % 2 ^ 48))) ∧
      (1 ≤ s.arg.c → s.arg.c ≤ 0x15 → s.arg.c ≠ 0x0F → let home := if t.fqc = 0x3FF then (s.frameOf t.plid t.tag.frame.toNat).home else t.fqc / 128 * 96 + t.fqc % 128
        ∃ u rec', exec .guestFaultRecord s = .next u ∧ (u.clusterOf home).recq = (s.clusterOf home).recq ++ [rec'] ∧ rec'.code = s.arg.c ∧ rec'.fval = s.arg.v ∧
          rec'.kind = 6 ∧ u.guest = g)) ∧
    (g.st = .active → tagOpen s s.arg.r = none → ∃ u, exec .guestCompletion s = .next u ∧ ended u 5) ∧
    (∀ (t : Tok), let e := s.arg.e
      let x := s.arg.x
      let r := s.arg.r
      let k := s.ctxOf e x
      e < 9216 → x < 4 → gqpHead s e x r = some t → targetOpen s k r = true → staleTok s (clusterOfElem e) k.plid t = true →
      ∃ u, exec .gqpAccept s = .next u ∧ u.guest = g ∧ vget (u.ctxOf e x).fifo r [] = (vget k.fifo r []).tail) ∧
    (∀ t, Tab.get? g.tags s.arg.r = some t → completionGoes s s.arg.r t = true → ∃ u, exec .guestCompletionEmit s = .next u ∧
      Tab.get? u.guest.tags s.arg.r = none ∧ (g.st = .fenced → g.ena = false → Tab.del g.tags s.arg.r = [] → u.guest.st = .down) ∧
      ∀ e x, staleTok s t.cl t.plid t.tag = false → t.ret < 14 → holderOf s t.plid t.vp t.el = some (e, x) → x < 4 →
        vget (u.ctxOf e x).fifo t.ret [] = vget (s.ctxOf e x).fifo t.ret [] ++ [completionTok s t]) ∧
    (cid < 256 → g.st = .active → c.cst ≠ .paused →
      (∀ gr, walked → grantFor s cid s.arg.v.toNat s.arg.acc = .ok gr → c.grants.length < 64 → treqsWaiting s cid = [] → ∃ u, exec .guestTreq s = .next u ∧
        (guestCtxOf u cid).grants = c.grants ++ [gr] ∧
        u.guest.out = g.out ++ [.trsp cid (ownPeer s * 2 ^ 46 + gr.page) gr.size gr.r gr.w gr.a]) ∧
      (∀ code, walked → grantFor s cid s.arg.v.toNat s.arg.acc = .error code → ∃ u, exec .guestTreq s = .next u ∧ u.guest.out = g.out ++ [.trspFault cid code] ∧
        u.guest.ctxs = g.ctxs) ∧
      (∀ gr, granted s cid s.arg.n 1 .read = .ok gr → s.arg.f ≠ 1 → free → hbmOk s gr.key (line * 128) 128 = true → ∃ u, exec .rdshared s = .next u ∧ line ∈ u.guest.copies ∧
        u.guest.out = g.out ++ [.rdata cid s.arg.n (memRead s.hbm (line * 128) 128) false] ∧ u.hbm = s.hbm) ∧
      (∀ gr, granted s cid s.arg.n 1 .write = .ok gr → s.arg.f ≠ 1 → line ∈ g.copies → line ∉ g.recalls → ∃ u, exec .wrthru s = .next u ∧ u.hbm = s.hbm ∧
        u.guest.copies = g.copies ∧ line ∈ u.guest.recalls ∧ GuestMsg.snpInv (line * 128) ∈ u.guest.out) ∧
      (∀ gr, granted s cid s.arg.n 1 .write = .ok gr → s.arg.f ≠ 1 → line ∉ g.copies → free → hbmOk s gr.key (line * 128) 128 = true → Tab.get? g.tags s.arg.r = none →
        memWf s.hbm = true → true ∈ s.arg.mask.take 128 → ∃ u, exec .wrthru s = .next u ∧
          (∀ i, i < 128 → memByte u.hbm (line * 128 + i) =
            if s.arg.mask.getD i false then s.arg.bytes.getD i 0 else memByte s.hbm (line * 128 + i)) ∧
          (∀ y, y < line * 128 ∨ line * 128 + 128 ≤ y → memByte u.hbm y = memByte s.hbm y)) ∧
      (∀ gr op v, granted s cid s.arg.n 8 .atomic = .ok gr → s.arg.gop = some op → s.arg.f ≠ 1 → line ∉ g.copies → free → s.arg.n % 8 = 0 → hbmOk s gr.key (s.arg.n % 2 ^ 46) 8 = true →
        Tab.get? g.tags s.arg.r = none → memWf s.hbm = true → guestAtomicNew op (leNat (memRead s.hbm (s.arg.n % 2 ^ 46) 8)) = some v →
        ∃ u, exec .guestAtomic s = .next u ∧ memRead u.hbm (s.arg.n % 2 ^ 46) 8 = leBytes 8 v ∧
          u.guest.out = g.out ++ [.adata cid s.arg.n (BitVec.ofNat 64 (leNat (memRead s.hbm (s.arg.n % 2 ^ 46) 8))) false]) ∧
      (∃ u, exec .clean s = .next u ∧ (∀ l, l ∈ u.guest.copies ↔ l ∈ g.copies ∧ l ≠ line))) ∧
    (g.st = .active → ∃ u, exec .snpinvAnswer s = .next u ∧ (∀ l, l ∈ u.guest.copies ↔ l ∈ g.copies ∧ l ≠ line) ∧
      u.agenda = s.agenda ++ (s.stalled.filter (fun w => !u.guest.copies.contains w.1 && !lineHeld s (.hbm (128 * w.1)))).map (·.2)) ∧
    (∀ k page rest, g.st = .active → c.invs = (k, page) :: rest → ∃ u, exec .invdone s = .next u ∧ (guestCtxOf u cid).invs = rest ∧
      (guestCtxOf u cid).grants = c.grants.filter (fun x => !grantHit page x)) ∧
    (g.st = .active → dutyOwed s s.arg.n cid = true → ∃ u, exec .guestDutyTimeout s = .next u ∧ ended u s.arg.n) ∧
    (g.st = .active → ∃ u, exec .guestMalformedMessage s = .next u ∧ ended u 6)

/-- R310 to R312, R410 to R412, R436, R438 to R440, R443 to R449: the platform: cold reset, GO, register writes, provisioning, attestation, host accesses, snapshots and
samples; and the Ethernet ports. Where it goes beyond the rules' words it rests on the model's choices in log entries 7, 81, 82, 88, 90, 91, 92, 93, 94, 95, 142, 144. -/
def Obligations.PlatformEvents : Prop :=
  ∀ (s : State), let d := s.dev
    let b := s.arg.bytes
    (∃ u, exec .coldReset s = .next u ∧ u.hbm = s.hbm ∧ u.hostMem = s.hostMem ∧ u.guestMem = s.guestMem ∧ u.seqs = State.reset.seqs ∧
      u.elems = State.reset.elems ∧ u.places = State.reset.places ∧ u.queues = State.reset.queues ∧ u.dev.goDone = false ∧
      u.dev.boot = (if s.arg.ok then 1 else 2)) ∧
    (d.boot = 1 → d.goDone = false → ∃ u, exec .go s = .next u ∧ u.dev.boot = 0 ∧ u.dev.goDone = true ∧
      field u.dev.memcfg 0 6 = field d.domcfg 0 6 ∧ field u.dev.memcfg 32 10 = field d.domcfg 32 10 ∧ u.seqs = s.seqs) ∧
    (s.arg.hdm = none → s.arg.k = 0x18 → s.arg.n = 8 → d.boot ≠ 2 → ∃ u, exec .registerWrite s = .next u ∧
      u = { s with dev := { d with hinva := BitVec.ofNat 64 (d.hinva.toNat / 2 ^ 58 * 2 ^ 58 + s.arg.v.toNat % 2 ^ 58) } }) ∧
    (s.arg.hdm = none → s.arg.k + s.arg.n ≤ 2 ^ 30 → s.arg.n ∈ [1, 2, 4, 8] → s.arg.k % s.arg.n = 0 → GoesOn (exec .registerWrite s)) ∧
    (∀ bar o n, s.arg.hdm = some (.barRead bar o n) → barAccess bar o n = true →
      exec .registerWrite s = .next { s with out := s.out ++ [.bar (if bar = 0 then devRead s o n else some (leNat (memRead d.bar2 o n)))] }) ∧
    (∀ o bs, s.arg.hdm = some (.barWrite 2 o bs) → barAccess 2 o bs.length = true →
      exec .registerWrite s = .next { s with dev := { d with bar2 := memWrite d.bar2 o bs } }) ∧
    (d.boot = 2 → ∀ i ∈ [Instr.provisioningInstall, .provisioningRevoke, .attestationRequest], exec i s = .next s) ∧
    (b.length = 128 → d.boot ≠ 2 →
      (pmOP b = 0 → pmReason s b = 0 → ∃ u, exec .provisioningInstall s = .next u ∧ (keyEntry u (pmKIDX b)).v = true ∧
        (keyEntry u (pmKIDX b)).pidx = pmPIDX b ∧ (keyEntry u (pmKIDX b)).serial = pmSERIAL b % 2 ^ 32 ∧ (keyEntry u (pmKIDX b)).secret = pmSecret s b ∧
        ∀ k, k ≠ pmKIDX b → keyEntry u k = keyEntry s k) ∧
      (pmOP b = 1 → pmReason s b = 0 → ∃ u, exec .provisioningRevoke s = .next u ∧ (keyEntry u (pmKIDX b)).v = false ∧
        (keyEntry u (pmKIDX b)).revoking = true ∧ ∀ k, k ≠ pmKIDX b → keyEntry u k = keyEntry s k) ∧
      (pmReason s b ≠ 0 → ∃ u u', exec .provisioningInstall s = .next u ∧ exec .provisioningRevoke s = .next u' ∧ u.dev.keys = d.keys ∧ u'.dev.keys = d.keys) ∧
      (1 < pmOP b → ∀ i ∈ [Instr.provisioningInstall, .provisioningRevoke], exec i s = .next (receipt s b (pmReason s b)))) ∧
    (s.arg.k ≠ 0 → (keyEntry s s.arg.k).revoking = true → keyQuiet s s.arg.k = true → ∃ u, exec .revokeComplete s = .next u ∧
      (keyEntry u s.arg.k).secret = [] ∧ (keyEntry u s.arg.k).revoking = false) ∧
    (b.length = 1216 → d.boot ≠ 2 → ∃ u, exec .attestationRequest s = .next u ∧ u.dev.sessions.length = min (d.sessions.length + 1) 16 + (d.sessions.length - 16) ∧
      u.dev.mreg = d.mreg ∧ u.dev.keys = d.keys) ∧
    (b.length = 32 → 2 ≤ s.arg.k → s.arg.k ≤ 7 → d.boot ≠ 2 → ∃ u, exec .attestationRequest s = .next u ∧
      vget u.dev.mreg s.arg.k 0 = mregExtend (vget d.mreg s.arg.k 0) b ∧ (∀ i, i < 8 → i ≠ s.arg.k → vget u.dev.mreg i 0 = vget d.mreg i 0) ∧ u.dev.sessions = d.sessions) ∧
    (∀ a n, s.arg.hdm = some (.read a n) →
      (hdmOpen s = false ∨ hdmRange s a n = false → exec .hostHdmAccess s = .next { s with out := s.out ++ [.hdm .abort] }) ∧
      (hdmOpen s = true → hdmRange s a n = true → lineBusy s false a n = none →
        (∀ bs, readHbm s d.hdmkey a n = some bs → beatLost s .host (homeDie s (.hbm a)) (homeDie s (.host 0)) = false →
          exec .hostHdmAccess s = .next { s with out := s.out ++ [.hdm (.data bs)] }) ∧
        (readHbm s d.hdmkey a n = none → ∃ u, exec .hostHdmAccess s = .next u ∧ u.out = s.out ++ [.hdm .bad] ∧ u.hbm = s.hbm))) ∧
    (∀ a bs, s.arg.hdm = some (.write a bs) → bs ≠ [] → hdmOpen s = true → hdmRange s a bs.length = true → lineBusy s true a bs.length = none →
      hbmOk s d.hdmkey a bs.length = true → memWf s.hbm = true → ∃ u, exec .hostHdmAccess s = .next u ∧ memRead u.hbm a bs.length = bs ∧
        (∀ y, y < a ∨ a + bs.length ≤ y → memByte u.hbm y = memByte s.hbm y) ∧ u.seqs = s.seqs) ∧
    (∃ u, exec .hostSnoop s = .next u ∧ u = { s with out := s.out ++ [.snoopRsp s.arg.k] }) ∧
    (exec .snapshotTrigger s = .next (if d.latching = [] then { s with dev := { d with snapSeq := d.snapSeq + 1, latching := snapBlocks } } else s)) ∧
    (∃ u, exec .powerSample s = .next u ∧ u = { s with reeveCyc := s.reeveCyc + 1350000, dev := { d with pmw := s.arg.k % 2 ^ 32 } }) ∧
    (∃ u, exec .inletTemperatureLimit s = .next u ∧ u = { s with dev := { d with tinlet := s.arg.k % 2 ^ 16 } }) ∧
    (∀ (pkt : EthPacket), let port := s.arg.p
      let e := ethOf s port
      let len := pkt.payload.length
      port < 4 → s.arg.eth = some pkt → e.ena = true → pkt.mode = .uud →
      (e.modes % 2 = 0 → ∃ u, exec .ethernetPacketReceive s = .next u ∧ u.clusters = s.clusters ∧
        Tab.getD u.dev.counters (0x0410 + 32 * port) 0 = Tab.getD d.counters (0x0410 + 32 * port) 0 + 1) ∧
      (e.modes % 2 = 1 → pkt.frameOk = true → len ≤ e.maxlen →
        (Tab.get? s.rings pkt.ring = none → ∃ u, exec .ethernetPacketReceive s = .next u ∧ u.clusters = s.clusters ∧
          Tab.getD u.dev.counters (0x0400 + 32 * port) 0 = Tab.getD d.counters (0x0400 + 32 * port) 0 + 1) ∧
        (∀ r t, Tab.get? s.rings pkt.ring = some r → r.unbinding = none → touchesBad (s.clusterOf r.cl).comErr 8 r.ctl 128 = false →
          (keyEntry s r.key).v = true → Config.gcmOpens (keyEntry s r.key).secret pkt.payload = true → ingestBad s r len = false → r.count + 1 < r.batch →
          ingest s r port pkt.src ((List.range len).map (Config.gcmPlain (keyEntry s r.key).secret pkt.payload)) = (t, true) →
          ∃ u, exec .ethernetPacketReceive s = .next u ∧ u = { t with rings := Tab.set t.rings pkt.ring { r with count := r.count + 1 } }))) ∧
    (∀ (r : Ring) (pl : Placement) (t : State), let r0 : Ring := { r with count := 0, pendingArrive := [r.count] }
      let gen := (s.frameOf r.plid r.frame).gen
      let s0 := touch { s with rings := Tab.set s.rings s.arg.r r0 } r.cl r.plid r.frame gen
      s.arg.r < 256 → Tab.get? s.rings s.arg.r = some r → r.pendingArrive = [] → r.count ≠ 0 → r.tmo ≠ 0 → r.unbinding = none →
      s.placeOf r.plid = some pl → ((s.frameOf r.plid r.frame).st = .opened ∨ (s.frameOf r.plid r.frame).st = .running) →
      inject s0 r.plid (entVelem (pl.entries.getD r.entry 0)) (chanRing s.arg.r) (arriveTok s0 pl r0 r.count) = .taken t →
      exec .arriveTimeout s = .next (left { t with rings := Tab.set t.rings s.arg.r { r0 with pendingArrive := [] } } r.cl r.plid r.frame gen)) ∧
    (s.arg.p < 4 → (ethOf s s.arg.p).ena = true → 64 ≤ s.arg.k → s.arg.k ≤ 512 → ∃ u, exec .ethernetTransmit s = .next u ∧
      u = { s with out := s.out ++ [.eth s.arg.p (ethOf s s.arg.p).dst ((bytesOfWords (ethOf s s.arg.p).buf.toList).take s.arg.k)] })

/-! Invariants of every step -/

/-- R7, R11: the memories of the machine right after reset are in canonical form. Where it goes beyond the rules' words it rests on the model's choices in log entry 6. -/
def Obligations.ResetMemoriesAreCanonical : Prop := State.reset.memoriesWf

/-- The memories of the package, and those of the host and the guest, stay in canonical form in every step: addresses strictly rising, no listed byte zero. Where it goes beyond the rules' words it rests on the model's choices in log entry 6. -/
def Obligations.StepsKeepMemoriesCanonical : Prop :=
  ∀ (s t : State), s.memoriesWf → step s = .next t → t.memoriesWf
end

