-- ==== Sys2Proof/Laws/Tab.lean ====
section
/-! SUPPORT. Tables by number, byte memories and vectors: a read after a write, what a write leaves alone, and the canonical form. -/

namespace Sys2Proof.Machine

/-! Tables -/

@[simp] theorem Tab.get?_set_same {α : Type} (t : Tab α) (k : Nat) (v : α) : Tab.get? (Tab.set t k v) k = some v := by
  induction t with
  | nil => simp [Tab.set, Tab.get?]
  | cons p t ih =>
    obtain ⟨j, w⟩ := p
    simp only [Tab.set]
    split
    · rw [Tab.get?, if_neg (by omega)]; exact ih
    · split <;> simp [Tab.get?]

theorem Tab.get?_set_other {α : Type} (t : Tab α) (k i : Nat) (v : α) (h : i ≠ k) :
    Tab.get? (Tab.set t k v) i = Tab.get? t i := by
  induction t with
  | nil => simp [Tab.set, Tab.get?, h.symm]
  | cons p t ih =>
    obtain ⟨j, w⟩ := p
    simp only [Tab.set]
    split
    · simp only [Tab.get?]; split <;> simp_all
    · split
      · subst_vars; simp [Tab.get?, h.symm]
      · simp [Tab.get?, h.symm]

@[simp] theorem Tab.getD_set_same {α : Type} (t : Tab α) (k : Nat) (v d : α) : Tab.getD (Tab.set t k v) k d = v := by
  simp [Tab.getD]

theorem Tab.getD_set_other {α : Type} (t : Tab α) (k i : Nat) (v d : α) (h : i ≠ k) :
    Tab.getD (Tab.set t k v) i d = Tab.getD t i d := by
  simp [Tab.getD, Tab.get?_set_other t k i v h]

theorem Tab.getD_set {α : Type} (t : Tab α) (k i : Nat) (v d : α) :
    Tab.getD (Tab.set t k v) i d = if i = k then v else Tab.getD t i d := by
  split
  · subst_vars; simp
  · exact Tab.getD_set_other t k i v d ‹_›

/-- Writing twice to one number is writing once. -/
@[simp] theorem Tab.set_set {α : Type} (t : Tab α) (k : Nat) (v w : α) : Tab.set (Tab.set t k v) k w = Tab.set t k w := by
  induction t with
  | nil => simp [Tab.set]
  | cons p t ih =>
    obtain ⟨j, u⟩ := p
    simp only [Tab.set]
    split
    · simp [Tab.set, *]
    · split <;> simp [Tab.set]

/-! Vectors -/

theorem vget_vset {α : Type} {n : Nat} (v : Vector α n) (i k : Nat) (x d : α) :
    vget (vset v k x) i d = if i = k ∧ k < n then x else vget v i d := by
  simp only [vget, vset, List.getD_eq_getElem?_getD]
  by_cases hi : i < n
  · have h1 : i < (v.setIfInBounds k x).toList.length := by simp [hi]
    have h2 : i < v.toList.length := by simp [hi]
    rw [List.getElem?_eq_getElem h1, List.getElem?_eq_getElem h2]
    simp only [Option.getD_some, Vector.getElem_toList, Vector.getElem_setIfInBounds]
    by_cases h : k = i
    · subst h; simp [hi]
    · have : ¬(i = k ∧ k < n) := fun h' => h h'.1.symm
      simp [h, this]
  · have h1 : ¬i < (v.setIfInBounds k x).toList.length := by simp; omega
    have h2 : ¬i < v.toList.length := by simp; omega
    rw [List.getElem?_eq_none (by omega), List.getElem?_eq_none (by omega)]
    have : ¬(i = k ∧ k < n) := by omega
    simp [this]

/-! Memories -/

@[simp] theorem memByte_nil (a : Nat) : memByte [] a = 0 := rfl

/-- Every listed address is above `b`. -/
def memAbove (b : Nat) (m : Memory) : Prop := ∀ p ∈ m, b < p.1

/-- The canonical form, said of the head and the rest. -/
theorem memWf_cons (a : Nat) (v : Byte) (m : Memory) : memWf ((a, v) :: m) = true ↔ v ≠ 0 ∧ memAbove a m ∧ memWf m = true := by
  induction m generalizing a v with
  | nil => simp [memWf, memAbove]
  | cons p m ih =>
    obtain ⟨b, w⟩ := p
    rw [show memWf ((a, v) :: (b, w) :: m) = (decide (a < b) && v != 0 && memWf ((b, w) :: m)) from rfl]
    simp only [Bool.and_eq_true, decide_eq_true_eq, bne_iff_ne]
    constructor
    · rintro ⟨⟨h, hv⟩, hw⟩
      refine ⟨hv, ?_, hw⟩
      intro q hq
      rcases List.mem_cons.mp hq with rfl | hq
      · exact h
      · exact Nat.lt_trans h ((ih b w).mp hw |>.2.1 q hq)
    · rintro ⟨hv, ha, hw⟩
      exact ⟨⟨ha (b, w) (by simp), hv⟩, hw⟩

theorem memByte_below {m : Memory} {b : Nat} (h : memAbove b m) {a : Nat} (ha : a ≤ b) : memByte m a = 0 := by
  induction m with
  | nil => rfl
  | cons p m ih =>
    obtain ⟨k, v⟩ := p
    have hk := h (k, v) (by simp)
    rw [memByte, if_neg (by simp at hk; omega)]
    exact ih (fun q hq => h q (by simp [hq]))

theorem memAbove_cons {b k : Nat} {w : Byte} {m : Memory} : memAbove b ((k, w) :: m) ↔ b < k ∧ memAbove b m := by
  simp [memAbove]

theorem memSet_above {m : Memory} {b a : Nat} {v : Byte} (h : memAbove b m) (ha : b < a) : memAbove b (memSet m a v) := by
  induction m with
  | nil => simp only [memSet]; split <;> simp_all [memAbove]
  | cons p m ih =>
    obtain ⟨k, w⟩ := p
    obtain ⟨hk, hm⟩ := memAbove_cons.mp h
    simp only [memSet]
    split
    · exact memAbove_cons.mpr ⟨hk, ih hm⟩
    · split <;> split
      · exact hm
      · exact memAbove_cons.mpr ⟨ha, hm⟩
      · exact h
      · exact memAbove_cons.mpr ⟨ha, h⟩

/-- A read after a write of one byte. -/
theorem memByte_memSet {m : Memory} (hm : memWf m = true) (a i : Nat) (v : Byte) :
    memByte (memSet m a v) i = if i = a then v else memByte m i := by
  induction m with
  | nil =>
    simp only [memSet]
    by_cases h : i = a
    · subst h; split <;> simp_all [memByte]
    · have h' : ¬a = i := fun h' => h h'.symm
      split <;> simp [memByte, h, h']
  | cons p m ih =>
    obtain ⟨k, w⟩ := p
    obtain ⟨hw, hab, hm'⟩ := (memWf_cons k w m).mp hm
    simp only [memSet]
    split
    · rename_i hlt
      simp only [memByte]
      by_cases h : k = i
      · rw [if_pos h, if_pos h, if_neg (by omega)]
      · rw [if_neg h, if_neg h]; exact ih hm'
    · rename_i hlt
      split
      · rename_i hka
        subst hka
        by_cases hv : v = 0
        · rw [if_pos hv]
          by_cases h : i = k
          · rw [if_pos h, hv]; exact memByte_below hab (by omega)
          · rw [if_neg h, memByte, if_neg (fun h' => h h'.symm)]
        · rw [if_neg hv]; simp only [memByte, eq_comm (a := i)]; by_cases h : k = i <;> simp [h]
      · rename_i hka
        by_cases hv : v = 0
        · rw [if_pos hv]
          by_cases h : i = a
          · rw [if_pos h, hv, memByte, if_neg (by omega)]; exact memByte_below hab (by omega)
          · rw [if_neg h]
        · rw [if_neg hv, memByte]
          by_cases h : i = a
          · simp [h]
          · rw [if_neg (fun h' => h h'.symm), if_neg h]

/-- A write of one byte keeps the canonical form. -/
theorem memWf_memSet {m : Memory} (hm : memWf m = true) (a : Nat) (v : Byte) : memWf (memSet m a v) = true := by
  induction m with
  | nil => simp only [memSet]; split <;> simp_all [memWf]
  | cons p m ih =>
    obtain ⟨k, w⟩ := p
    obtain ⟨hw, hab, hm'⟩ := (memWf_cons k w m).mp hm
    simp only [memSet]
    split
    · rename_i hlt
      exact (memWf_cons _ _ _).mpr ⟨hw, memSet_above hab hlt, ih hm'⟩
    · split
      · rename_i hka
        subst hka
        split
        · exact hm'
        · exact (memWf_cons _ _ _).mpr ⟨‹_›, hab, hm'⟩
      · split
        · exact hm
        · refine (memWf_cons _ _ _).mpr ⟨‹_›, ?_, hm⟩
          intro q hq
          rcases List.mem_cons.mp hq with rfl | hq
          · change a < k; omega
          · have := hab q hq; omega

/-- A write of bytes keeps the canonical form. -/
theorem memWf_memWrite {m : Memory} (hm : memWf m = true) (a : Nat) (bs : List Byte) : memWf (memWrite m a bs) = true := by
  induction bs generalizing m a with
  | nil => exact hm
  | cons b bs ih => exact ih (memWf_memSet hm a b) (a + 1)

/-- A read after a write of bytes. -/
theorem memByte_memWrite {m : Memory} (hm : memWf m = true) (a : Nat) (bs : List Byte) (i : Nat) :
    memByte (memWrite m a bs) i = if a ≤ i ∧ i < a + bs.length then bs.getD (i - a) 0 else memByte m i := by
  induction bs generalizing m a with
  | nil => rw [if_neg (by simp only [List.length_nil]; omega)]; rfl
  | cons b bs ih =>
    rw [memWrite, ih (memWf_memSet hm a b), memByte_memSet hm]
    simp only [List.length_cons]
    by_cases h : i = a
    · subst h; rw [if_neg (by omega), if_pos rfl, if_pos (by omega)]; simp
    · rw [if_neg h]
      by_cases h2 : a + 1 ≤ i ∧ i < a + 1 + bs.length
      · rw [if_pos h2, if_pos (by omega)]
        obtain ⟨j, rfl⟩ : ∃ j, i = a + 1 + j := ⟨i - (a + 1), by omega⟩
        rw [show a + 1 + j - (a + 1) = j by omega, show a + 1 + j - a = j + 1 by omega]; simp
      · rw [if_neg h2, if_neg (by omega)]

/-- Reading back the bytes written gives them. -/
theorem memRead_memWrite {m : Memory} (hm : memWf m = true) (a : Nat) (bs : List Byte) (n : Nat) (hn : n = bs.length) :
    memRead (memWrite m a bs) a n = bs := by
  subst hn
  apply List.ext_getElem
  · simp [memRead]
  · intro i h1 h2
    simp only [memRead, List.getElem_map, List.getElem_range, memByte_memWrite hm]
    rw [if_pos (by omega), show a + i - a = i by omega]
    simp [List.getElem?_eq_getElem h2]

/-- Bytes outside those written read as before. -/
theorem memByte_memWrite_other {m : Memory} (hm : memWf m = true) (a : Nat) (bs : List Byte) (i : Nat) (hi : i < a ∨ a + bs.length ≤ i) :
    memByte (memWrite m a bs) i = memByte m i := by
  rw [memByte_memWrite hm, if_neg (by omega)]

theorem memAbove_filter {b : Nat} {m : Memory} (f : Host.Cell → Bool) (h : memAbove b m) : memAbove b (m.filter f) :=
  fun q hq => h q (List.mem_filter.mp hq).1

/-- Clearing bytes keeps the canonical form. -/
theorem memWf_memClear {m : Memory} (hm : memWf m = true) (a n : Nat) : memWf (memClear m a n) = true := by
  induction m with
  | nil => rfl
  | cons p m ih =>
    obtain ⟨k, w⟩ := p
    obtain ⟨hw, hab, hm'⟩ := (memWf_cons k w m).mp hm
    simp only [memClear, List.filter_cons]
    split
    · exact (memWf_cons _ _ _).mpr ⟨hw, memAbove_filter _ hab, ih hm'⟩
    · exact ih hm'

/-- Reading a part of the bytes just written. -/
theorem memRead_memWrite_part {m : Memory} (hm : memWf m = true) (a o n : Nat) (bs : List Byte) (h : o + n ≤ bs.length) :
    memRead (memWrite m a bs) (a + o) n = (bs.drop o).take n := by
  apply List.ext_getElem
  · simp only [memRead, List.length_map, List.length_range, List.length_take, List.length_drop]; omega
  · intro i h1 h2
    have hi : i < n := by simpa [memRead] using h1
    simp only [memRead, List.getElem_map, List.getElem_range, memByte_memWrite hm, List.getElem_take, List.getElem_drop]
    rw [if_pos (by omega), show a + o + i - a = o + i by omega]
    simp [List.getElem?_eq_getElem (show o + i < bs.length by omega)]

/-- A number laid out takes that many bytes. -/
theorem length_leBytes (n v : Nat) : (leBytes n v).length = n := by
  induction n generalizing v with
  | zero => rfl
  | succ n ih => simp [leBytes, ih]

/-- A number of n bytes is below 256 to the n. -/
theorem leNat_lt (l : List Byte) : leNat l < 256 ^ l.length := by
  induction l with
  | nil => simp [leNat]
  | cons b l ih => simp only [leNat, List.length_cons, Nat.pow_succ]; have := b.isLt; omega

/-- The number of two runs of bytes. -/
theorem leNat_append (a b : List Byte) : leNat (a ++ b) = leNat a + 256 ^ a.length * leNat b := by
  induction a with
  | nil => simp [leNat]
  | cons x a ih => simp only [List.cons_append, leNat, ih, List.length_cons, Nat.pow_succ]; rw [Nat.mul_comm (256 ^ a.length) 256, Nat.mul_assoc]; omega

/-- Reading a number laid out in n bytes. -/
theorem leNat_leBytes (n v : Nat) : leNat (leBytes n v) = v % 256 ^ n := by
  induction n generalizing v with
  | zero => simp [leBytes, leNat, Nat.mod_one]
  | succ n ih =>
    simp only [leBytes, leNat, ih, BitVec.toNat_ofNat]
    rw [show 256 ^ (n + 1) = 256 * 256 ^ n from Nat.pow_succ', Nat.mod_mul]

end Sys2Proof.Machine
end

