-- ==== Sys2Proof/Laws/State.lean ====
section
/-! SUPPORT. What each update of the state leaves alone, one lemma for each field, and a read after each update. -/

namespace Sys2Proof.Machine


/-! State.setSeq -/

@[simp] theorem State.setSeq_cur (s : State) (c : Nat) (q : Seq) : (s.setSeq c q).cur = s.cur := rfl
@[simp] theorem State.setSeq_site (s : State) (c : Nat) (q : Seq) : (s.setSeq c q).site = s.site := rfl
@[simp] theorem State.setSeq_arg (s : State) (c : Nat) (q : Seq) : (s.setSeq c q).arg = s.arg := rfl
@[simp] theorem State.setSeq_agenda (s : State) (c : Nat) (q : Seq) : (s.setSeq c q).agenda = s.agenda := rfl
@[simp] theorem State.setSeq_inputs (s : State) (c : Nat) (q : Seq) : (s.setSeq c q).inputs = s.inputs := rfl
@[simp] theorem State.setSeq_stalled (s : State) (c : Nat) (q : Seq) : (s.setSeq c q).stalled = s.stalled := rfl
@[simp] theorem State.setSeq_turn (s : State) (c : Nat) (q : Seq) : (s.setSeq c q).turn = s.turn := rfl
@[simp] theorem State.setSeq_free (s : State) (c : Nat) (q : Seq) : (s.setSeq c q).free = s.free := rfl
@[simp] theorem State.setSeq_elems (s : State) (c : Nat) (q : Seq) : (s.setSeq c q).elems = s.elems := rfl
@[simp] theorem State.setSeq_clusters (s : State) (c : Nat) (q : Seq) : (s.setSeq c q).clusters = s.clusters := rfl
@[simp] theorem State.setSeq_dieTlb (s : State) (c : Nat) (q : Seq) : (s.setSeq c q).dieTlb = s.dieTlb := rfl
@[simp] theorem State.setSeq_places (s : State) (c : Nat) (q : Seq) : (s.setSeq c q).places = s.places := rfl
@[simp] theorem State.setSeq_pa (s : State) (c : Nat) (q : Seq) : (s.setSeq c q).pa = s.pa := rfl
@[simp] theorem State.setSeq_releases (s : State) (c : Nat) (q : Seq) : (s.setSeq c q).releases = s.releases := rfl
@[simp] theorem State.setSeq_spills (s : State) (c : Nat) (q : Seq) : (s.setSeq c q).spills = s.spills := rfl
@[simp] theorem State.setSeq_hbm (s : State) (c : Nat) (q : Seq) : (s.setSeq c q).hbm = s.hbm := rfl
@[simp] theorem State.setSeq_hbmKey (s : State) (c : Nat) (q : Seq) : (s.setSeq c q).hbmKey = s.hbmKey := rfl
@[simp] theorem State.setSeq_hbmErr (s : State) (c : Nat) (q : Seq) : (s.setSeq c q).hbmErr = s.hbmErr := rfl
@[simp] theorem State.setSeq_hostMem (s : State) (c : Nat) (q : Seq) : (s.setSeq c q).hostMem = s.hostMem := rfl
@[simp] theorem State.setSeq_guestMem (s : State) (c : Nat) (q : Seq) : (s.setSeq c q).guestMem = s.guestMem := rfl
@[simp] theorem State.setSeq_posted (s : State) (c : Nat) (q : Seq) : (s.setSeq c q).posted = s.posted := rfl
@[simp] theorem State.setSeq_retries (s : State) (c : Nat) (q : Seq) : (s.setSeq c q).retries = s.retries := rfl
@[simp] theorem State.setSeq_walks (s : State) (c : Nat) (q : Seq) : (s.setSeq c q).walks = s.walks := rfl
@[simp] theorem State.setSeq_invals (s : State) (c : Nat) (q : Seq) : (s.setSeq c q).invals = s.invals := rfl
@[simp] theorem State.setSeq_nextInval (s : State) (c : Nat) (q : Seq) : (s.setSeq c q).nextInval = s.nextInval := rfl
@[simp] theorem State.setSeq_queues (s : State) (c : Nat) (q : Seq) : (s.setSeq c q).queues = s.queues := rfl
@[simp] theorem State.setSeq_reeveRr (s : State) (c : Nat) (q : Seq) : (s.setSeq c q).reeveRr = s.reeveRr := rfl
@[simp] theorem State.setSeq_reeveCyc (s : State) (c : Nat) (q : Seq) : (s.setSeq c q).reeveCyc = s.reeveCyc := rfl
@[simp] theorem State.setSeq_notices (s : State) (c : Nat) (q : Seq) : (s.setSeq c q).notices = s.notices := rfl
@[simp] theorem State.setSeq_evictions (s : State) (c : Nat) (q : Seq) : (s.setSeq c q).evictions = s.evictions := rfl
@[simp] theorem State.setSeq_restored (s : State) (c : Nat) (q : Seq) : (s.setSeq c q).restored = s.restored := rfl
@[simp] theorem State.setSeq_rings (s : State) (c : Nat) (q : Seq) : (s.setSeq c q).rings = s.rings := rfl
@[simp] theorem State.setSeq_eth (s : State) (c : Nat) (q : Seq) : (s.setSeq c q).eth = s.eth := rfl
@[simp] theorem State.setSeq_kports (s : State) (c : Nat) (q : Seq) : (s.setSeq c q).kports = s.kports := rfl
@[simp] theorem State.setSeq_links (s : State) (c : Nat) (q : Seq) : (s.setSeq c q).links = s.links := rfl
@[simp] theorem State.setSeq_remotes (s : State) (c : Nat) (q : Seq) : (s.setSeq c q).remotes = s.remotes := rfl
@[simp] theorem State.setSeq_nextRid (s : State) (c : Nat) (q : Seq) : (s.setSeq c q).nextRid = s.nextRid := rfl
@[simp] theorem State.setSeq_guest (s : State) (c : Nat) (q : Seq) : (s.setSeq c q).guest = s.guest := rfl
@[simp] theorem State.setSeq_dev (s : State) (c : Nat) (q : Seq) : (s.setSeq c q).dev = s.dev := rfl
@[simp] theorem State.setSeq_out (s : State) (c : Nat) (q : Seq) : (s.setSeq c q).out = s.out := rfl
@[simp] theorem State.setSeq_nextFault (s : State) (c : Nat) (q : Seq) : (s.setSeq c q).nextFault = s.nextFault := rfl
@[simp] theorem State.setSeq_nextCmd (s : State) (c : Nat) (q : Seq) : (s.setSeq c q).nextCmd = s.nextCmd := rfl

/-! State.setMe -/

@[simp] theorem State.setMe_cur (s : State) (q : Seq) : (s.setMe q).cur = s.cur := rfl
@[simp] theorem State.setMe_site (s : State) (q : Seq) : (s.setMe q).site = s.site := rfl
@[simp] theorem State.setMe_arg (s : State) (q : Seq) : (s.setMe q).arg = s.arg := rfl
@[simp] theorem State.setMe_agenda (s : State) (q : Seq) : (s.setMe q).agenda = s.agenda := rfl
@[simp] theorem State.setMe_inputs (s : State) (q : Seq) : (s.setMe q).inputs = s.inputs := rfl
@[simp] theorem State.setMe_stalled (s : State) (q : Seq) : (s.setMe q).stalled = s.stalled := rfl
@[simp] theorem State.setMe_turn (s : State) (q : Seq) : (s.setMe q).turn = s.turn := rfl
@[simp] theorem State.setMe_free (s : State) (q : Seq) : (s.setMe q).free = s.free := rfl
@[simp] theorem State.setMe_elems (s : State) (q : Seq) : (s.setMe q).elems = s.elems := rfl
@[simp] theorem State.setMe_clusters (s : State) (q : Seq) : (s.setMe q).clusters = s.clusters := rfl
@[simp] theorem State.setMe_dieTlb (s : State) (q : Seq) : (s.setMe q).dieTlb = s.dieTlb := rfl
@[simp] theorem State.setMe_places (s : State) (q : Seq) : (s.setMe q).places = s.places := rfl
@[simp] theorem State.setMe_pa (s : State) (q : Seq) : (s.setMe q).pa = s.pa := rfl
@[simp] theorem State.setMe_releases (s : State) (q : Seq) : (s.setMe q).releases = s.releases := rfl
@[simp] theorem State.setMe_spills (s : State) (q : Seq) : (s.setMe q).spills = s.spills := rfl
@[simp] theorem State.setMe_hbm (s : State) (q : Seq) : (s.setMe q).hbm = s.hbm := rfl
@[simp] theorem State.setMe_hbmKey (s : State) (q : Seq) : (s.setMe q).hbmKey = s.hbmKey := rfl
@[simp] theorem State.setMe_hbmErr (s : State) (q : Seq) : (s.setMe q).hbmErr = s.hbmErr := rfl
@[simp] theorem State.setMe_hostMem (s : State) (q : Seq) : (s.setMe q).hostMem = s.hostMem := rfl
@[simp] theorem State.setMe_guestMem (s : State) (q : Seq) : (s.setMe q).guestMem = s.guestMem := rfl
@[simp] theorem State.setMe_posted (s : State) (q : Seq) : (s.setMe q).posted = s.posted := rfl
@[simp] theorem State.setMe_retries (s : State) (q : Seq) : (s.setMe q).retries = s.retries := rfl
@[simp] theorem State.setMe_walks (s : State) (q : Seq) : (s.setMe q).walks = s.walks := rfl
@[simp] theorem State.setMe_invals (s : State) (q : Seq) : (s.setMe q).invals = s.invals := rfl
@[simp] theorem State.setMe_nextInval (s : State) (q : Seq) : (s.setMe q).nextInval = s.nextInval := rfl
@[simp] theorem State.setMe_queues (s : State) (q : Seq) : (s.setMe q).queues = s.queues := rfl
@[simp] theorem State.setMe_reeveRr (s : State) (q : Seq) : (s.setMe q).reeveRr = s.reeveRr := rfl
@[simp] theorem State.setMe_reeveCyc (s : State) (q : Seq) : (s.setMe q).reeveCyc = s.reeveCyc := rfl
@[simp] theorem State.setMe_notices (s : State) (q : Seq) : (s.setMe q).notices = s.notices := rfl
@[simp] theorem State.setMe_evictions (s : State) (q : Seq) : (s.setMe q).evictions = s.evictions := rfl
@[simp] theorem State.setMe_restored (s : State) (q : Seq) : (s.setMe q).restored = s.restored := rfl
@[simp] theorem State.setMe_rings (s : State) (q : Seq) : (s.setMe q).rings = s.rings := rfl
@[simp] theorem State.setMe_eth (s : State) (q : Seq) : (s.setMe q).eth = s.eth := rfl
@[simp] theorem State.setMe_kports (s : State) (q : Seq) : (s.setMe q).kports = s.kports := rfl
@[simp] theorem State.setMe_links (s : State) (q : Seq) : (s.setMe q).links = s.links := rfl
@[simp] theorem State.setMe_remotes (s : State) (q : Seq) : (s.setMe q).remotes = s.remotes := rfl
@[simp] theorem State.setMe_nextRid (s : State) (q : Seq) : (s.setMe q).nextRid = s.nextRid := rfl
@[simp] theorem State.setMe_guest (s : State) (q : Seq) : (s.setMe q).guest = s.guest := rfl
@[simp] theorem State.setMe_dev (s : State) (q : Seq) : (s.setMe q).dev = s.dev := rfl
@[simp] theorem State.setMe_out (s : State) (q : Seq) : (s.setMe q).out = s.out := rfl
@[simp] theorem State.setMe_nextFault (s : State) (q : Seq) : (s.setMe q).nextFault = s.nextFault := rfl
@[simp] theorem State.setMe_nextCmd (s : State) (q : Seq) : (s.setMe q).nextCmd = s.nextCmd := rfl

/-! State.setElem -/

@[simp] theorem State.setElem_cur (s : State) (e : Nat) (v : Elem) : (s.setElem e v).cur = s.cur := rfl
@[simp] theorem State.setElem_site (s : State) (e : Nat) (v : Elem) : (s.setElem e v).site = s.site := rfl
@[simp] theorem State.setElem_arg (s : State) (e : Nat) (v : Elem) : (s.setElem e v).arg = s.arg := rfl
@[simp] theorem State.setElem_agenda (s : State) (e : Nat) (v : Elem) : (s.setElem e v).agenda = s.agenda := rfl
@[simp] theorem State.setElem_inputs (s : State) (e : Nat) (v : Elem) : (s.setElem e v).inputs = s.inputs := rfl
@[simp] theorem State.setElem_stalled (s : State) (e : Nat) (v : Elem) : (s.setElem e v).stalled = s.stalled := rfl
@[simp] theorem State.setElem_turn (s : State) (e : Nat) (v : Elem) : (s.setElem e v).turn = s.turn := rfl
@[simp] theorem State.setElem_free (s : State) (e : Nat) (v : Elem) : (s.setElem e v).free = s.free := rfl
@[simp] theorem State.setElem_seqs (s : State) (e : Nat) (v : Elem) : (s.setElem e v).seqs = s.seqs := rfl
@[simp] theorem State.setElem_clusters (s : State) (e : Nat) (v : Elem) : (s.setElem e v).clusters = s.clusters := rfl
@[simp] theorem State.setElem_dieTlb (s : State) (e : Nat) (v : Elem) : (s.setElem e v).dieTlb = s.dieTlb := rfl
@[simp] theorem State.setElem_places (s : State) (e : Nat) (v : Elem) : (s.setElem e v).places = s.places := rfl
@[simp] theorem State.setElem_pa (s : State) (e : Nat) (v : Elem) : (s.setElem e v).pa = s.pa := rfl
@[simp] theorem State.setElem_releases (s : State) (e : Nat) (v : Elem) : (s.setElem e v).releases = s.releases := rfl
@[simp] theorem State.setElem_spills (s : State) (e : Nat) (v : Elem) : (s.setElem e v).spills = s.spills := rfl
@[simp] theorem State.setElem_hbm (s : State) (e : Nat) (v : Elem) : (s.setElem e v).hbm = s.hbm := rfl
@[simp] theorem State.setElem_hbmKey (s : State) (e : Nat) (v : Elem) : (s.setElem e v).hbmKey = s.hbmKey := rfl
@[simp] theorem State.setElem_hbmErr (s : State) (e : Nat) (v : Elem) : (s.setElem e v).hbmErr = s.hbmErr := rfl
@[simp] theorem State.setElem_hostMem (s : State) (e : Nat) (v : Elem) : (s.setElem e v).hostMem = s.hostMem := rfl
@[simp] theorem State.setElem_guestMem (s : State) (e : Nat) (v : Elem) : (s.setElem e v).guestMem = s.guestMem := rfl
@[simp] theorem State.setElem_posted (s : State) (e : Nat) (v : Elem) : (s.setElem e v).posted = s.posted := rfl
@[simp] theorem State.setElem_retries (s : State) (e : Nat) (v : Elem) : (s.setElem e v).retries = s.retries := rfl
@[simp] theorem State.setElem_walks (s : State) (e : Nat) (v : Elem) : (s.setElem e v).walks = s.walks := rfl
@[simp] theorem State.setElem_invals (s : State) (e : Nat) (v : Elem) : (s.setElem e v).invals = s.invals := rfl
@[simp] theorem State.setElem_nextInval (s : State) (e : Nat) (v : Elem) : (s.setElem e v).nextInval = s.nextInval := rfl
@[simp] theorem State.setElem_queues (s : State) (e : Nat) (v : Elem) : (s.setElem e v).queues = s.queues := rfl
@[simp] theorem State.setElem_reeveRr (s : State) (e : Nat) (v : Elem) : (s.setElem e v).reeveRr = s.reeveRr := rfl
@[simp] theorem State.setElem_reeveCyc (s : State) (e : Nat) (v : Elem) : (s.setElem e v).reeveCyc = s.reeveCyc := rfl
@[simp] theorem State.setElem_notices (s : State) (e : Nat) (v : Elem) : (s.setElem e v).notices = s.notices := rfl
@[simp] theorem State.setElem_evictions (s : State) (e : Nat) (v : Elem) : (s.setElem e v).evictions = s.evictions := rfl
@[simp] theorem State.setElem_restored (s : State) (e : Nat) (v : Elem) : (s.setElem e v).restored = s.restored := rfl
@[simp] theorem State.setElem_rings (s : State) (e : Nat) (v : Elem) : (s.setElem e v).rings = s.rings := rfl
@[simp] theorem State.setElem_eth (s : State) (e : Nat) (v : Elem) : (s.setElem e v).eth = s.eth := rfl
@[simp] theorem State.setElem_kports (s : State) (e : Nat) (v : Elem) : (s.setElem e v).kports = s.kports := rfl
@[simp] theorem State.setElem_links (s : State) (e : Nat) (v : Elem) : (s.setElem e v).links = s.links := rfl
@[simp] theorem State.setElem_remotes (s : State) (e : Nat) (v : Elem) : (s.setElem e v).remotes = s.remotes := rfl
@[simp] theorem State.setElem_nextRid (s : State) (e : Nat) (v : Elem) : (s.setElem e v).nextRid = s.nextRid := rfl
@[simp] theorem State.setElem_guest (s : State) (e : Nat) (v : Elem) : (s.setElem e v).guest = s.guest := rfl
@[simp] theorem State.setElem_dev (s : State) (e : Nat) (v : Elem) : (s.setElem e v).dev = s.dev := rfl
@[simp] theorem State.setElem_out (s : State) (e : Nat) (v : Elem) : (s.setElem e v).out = s.out := rfl
@[simp] theorem State.setElem_nextFault (s : State) (e : Nat) (v : Elem) : (s.setElem e v).nextFault = s.nextFault := rfl
@[simp] theorem State.setElem_nextCmd (s : State) (e : Nat) (v : Elem) : (s.setElem e v).nextCmd = s.nextCmd := rfl

/-! State.setCtx -/

@[simp] theorem State.setCtx_cur (s : State) (e x : Nat) (c : Ctx) : (s.setCtx e x c).cur = s.cur := rfl
@[simp] theorem State.setCtx_site (s : State) (e x : Nat) (c : Ctx) : (s.setCtx e x c).site = s.site := rfl
@[simp] theorem State.setCtx_arg (s : State) (e x : Nat) (c : Ctx) : (s.setCtx e x c).arg = s.arg := rfl
@[simp] theorem State.setCtx_agenda (s : State) (e x : Nat) (c : Ctx) : (s.setCtx e x c).agenda = s.agenda := rfl
@[simp] theorem State.setCtx_inputs (s : State) (e x : Nat) (c : Ctx) : (s.setCtx e x c).inputs = s.inputs := rfl
@[simp] theorem State.setCtx_stalled (s : State) (e x : Nat) (c : Ctx) : (s.setCtx e x c).stalled = s.stalled := rfl
@[simp] theorem State.setCtx_turn (s : State) (e x : Nat) (c : Ctx) : (s.setCtx e x c).turn = s.turn := rfl
@[simp] theorem State.setCtx_free (s : State) (e x : Nat) (c : Ctx) : (s.setCtx e x c).free = s.free := rfl
@[simp] theorem State.setCtx_seqs (s : State) (e x : Nat) (c : Ctx) : (s.setCtx e x c).seqs = s.seqs := rfl
@[simp] theorem State.setCtx_clusters (s : State) (e x : Nat) (c : Ctx) : (s.setCtx e x c).clusters = s.clusters := rfl
@[simp] theorem State.setCtx_dieTlb (s : State) (e x : Nat) (c : Ctx) : (s.setCtx e x c).dieTlb = s.dieTlb := rfl
@[simp] theorem State.setCtx_places (s : State) (e x : Nat) (c : Ctx) : (s.setCtx e x c).places = s.places := rfl
@[simp] theorem State.setCtx_pa (s : State) (e x : Nat) (c : Ctx) : (s.setCtx e x c).pa = s.pa := rfl
@[simp] theorem State.setCtx_releases (s : State) (e x : Nat) (c : Ctx) : (s.setCtx e x c).releases = s.releases := rfl
@[simp] theorem State.setCtx_spills (s : State) (e x : Nat) (c : Ctx) : (s.setCtx e x c).spills = s.spills := rfl
@[simp] theorem State.setCtx_hbm (s : State) (e x : Nat) (c : Ctx) : (s.setCtx e x c).hbm = s.hbm := rfl
@[simp] theorem State.setCtx_hbmKey (s : State) (e x : Nat) (c : Ctx) : (s.setCtx e x c).hbmKey = s.hbmKey := rfl
@[simp] theorem State.setCtx_hbmErr (s : State) (e x : Nat) (c : Ctx) : (s.setCtx e x c).hbmErr = s.hbmErr := rfl
@[simp] theorem State.setCtx_hostMem (s : State) (e x : Nat) (c : Ctx) : (s.setCtx e x c).hostMem = s.hostMem := rfl
@[simp] theorem State.setCtx_guestMem (s : State) (e x : Nat) (c : Ctx) : (s.setCtx e x c).guestMem = s.guestMem := rfl
@[simp] theorem State.setCtx_posted (s : State) (e x : Nat) (c : Ctx) : (s.setCtx e x c).posted = s.posted := rfl
@[simp] theorem State.setCtx_retries (s : State) (e x : Nat) (c : Ctx) : (s.setCtx e x c).retries = s.retries := rfl
@[simp] theorem State.setCtx_walks (s : State) (e x : Nat) (c : Ctx) : (s.setCtx e x c).walks = s.walks := rfl
@[simp] theorem State.setCtx_invals (s : State) (e x : Nat) (c : Ctx) : (s.setCtx e x c).invals = s.invals := rfl
@[simp] theorem State.setCtx_nextInval (s : State) (e x : Nat) (c : Ctx) : (s.setCtx e x c).nextInval = s.nextInval := rfl
@[simp] theorem State.setCtx_queues (s : State) (e x : Nat) (c : Ctx) : (s.setCtx e x c).queues = s.queues := rfl
@[simp] theorem State.setCtx_reeveRr (s : State) (e x : Nat) (c : Ctx) : (s.setCtx e x c).reeveRr = s.reeveRr := rfl
@[simp] theorem State.setCtx_reeveCyc (s : State) (e x : Nat) (c : Ctx) : (s.setCtx e x c).reeveCyc = s.reeveCyc := rfl
@[simp] theorem State.setCtx_notices (s : State) (e x : Nat) (c : Ctx) : (s.setCtx e x c).notices = s.notices := rfl
@[simp] theorem State.setCtx_evictions (s : State) (e x : Nat) (c : Ctx) : (s.setCtx e x c).evictions = s.evictions := rfl
@[simp] theorem State.setCtx_restored (s : State) (e x : Nat) (c : Ctx) : (s.setCtx e x c).restored = s.restored := rfl
@[simp] theorem State.setCtx_rings (s : State) (e x : Nat) (c : Ctx) : (s.setCtx e x c).rings = s.rings := rfl
@[simp] theorem State.setCtx_eth (s : State) (e x : Nat) (c : Ctx) : (s.setCtx e x c).eth = s.eth := rfl
@[simp] theorem State.setCtx_kports (s : State) (e x : Nat) (c : Ctx) : (s.setCtx e x c).kports = s.kports := rfl
@[simp] theorem State.setCtx_links (s : State) (e x : Nat) (c : Ctx) : (s.setCtx e x c).links = s.links := rfl
@[simp] theorem State.setCtx_remotes (s : State) (e x : Nat) (c : Ctx) : (s.setCtx e x c).remotes = s.remotes := rfl
@[simp] theorem State.setCtx_nextRid (s : State) (e x : Nat) (c : Ctx) : (s.setCtx e x c).nextRid = s.nextRid := rfl
@[simp] theorem State.setCtx_guest (s : State) (e x : Nat) (c : Ctx) : (s.setCtx e x c).guest = s.guest := rfl
@[simp] theorem State.setCtx_dev (s : State) (e x : Nat) (c : Ctx) : (s.setCtx e x c).dev = s.dev := rfl
@[simp] theorem State.setCtx_out (s : State) (e x : Nat) (c : Ctx) : (s.setCtx e x c).out = s.out := rfl
@[simp] theorem State.setCtx_nextFault (s : State) (e x : Nat) (c : Ctx) : (s.setCtx e x c).nextFault = s.nextFault := rfl
@[simp] theorem State.setCtx_nextCmd (s : State) (e x : Nat) (c : Ctx) : (s.setCtx e x c).nextCmd = s.nextCmd := rfl

/-! State.updCtx -/

@[simp] theorem State.updCtx_cur (s : State) (e x : Nat) (f : Ctx → Ctx) : (s.updCtx e x f).cur = s.cur := rfl
@[simp] theorem State.updCtx_site (s : State) (e x : Nat) (f : Ctx → Ctx) : (s.updCtx e x f).site = s.site := rfl
@[simp] theorem State.updCtx_arg (s : State) (e x : Nat) (f : Ctx → Ctx) : (s.updCtx e x f).arg = s.arg := rfl
@[simp] theorem State.updCtx_agenda (s : State) (e x : Nat) (f : Ctx → Ctx) : (s.updCtx e x f).agenda = s.agenda := rfl
@[simp] theorem State.updCtx_inputs (s : State) (e x : Nat) (f : Ctx → Ctx) : (s.updCtx e x f).inputs = s.inputs := rfl
@[simp] theorem State.updCtx_stalled (s : State) (e x : Nat) (f : Ctx → Ctx) : (s.updCtx e x f).stalled = s.stalled := rfl
@[simp] theorem State.updCtx_turn (s : State) (e x : Nat) (f : Ctx → Ctx) : (s.updCtx e x f).turn = s.turn := rfl
@[simp] theorem State.updCtx_free (s : State) (e x : Nat) (f : Ctx → Ctx) : (s.updCtx e x f).free = s.free := rfl
@[simp] theorem State.updCtx_seqs (s : State) (e x : Nat) (f : Ctx → Ctx) : (s.updCtx e x f).seqs = s.seqs := rfl
@[simp] theorem State.updCtx_clusters (s : State) (e x : Nat) (f : Ctx → Ctx) : (s.updCtx e x f).clusters = s.clusters := rfl
@[simp] theorem State.updCtx_dieTlb (s : State) (e x : Nat) (f : Ctx → Ctx) : (s.updCtx e x f).dieTlb = s.dieTlb := rfl
@[simp] theorem State.updCtx_places (s : State) (e x : Nat) (f : Ctx → Ctx) : (s.updCtx e x f).places = s.places := rfl
@[simp] theorem State.updCtx_pa (s : State) (e x : Nat) (f : Ctx → Ctx) : (s.updCtx e x f).pa = s.pa := rfl
@[simp] theorem State.updCtx_releases (s : State) (e x : Nat) (f : Ctx → Ctx) : (s.updCtx e x f).releases = s.releases := rfl
@[simp] theorem State.updCtx_spills (s : State) (e x : Nat) (f : Ctx → Ctx) : (s.updCtx e x f).spills = s.spills := rfl
@[simp] theorem State.updCtx_hbm (s : State) (e x : Nat) (f : Ctx → Ctx) : (s.updCtx e x f).hbm = s.hbm := rfl
@[simp] theorem State.updCtx_hbmKey (s : State) (e x : Nat) (f : Ctx → Ctx) : (s.updCtx e x f).hbmKey = s.hbmKey := rfl
@[simp] theorem State.updCtx_hbmErr (s : State) (e x : Nat) (f : Ctx → Ctx) : (s.updCtx e x f).hbmErr = s.hbmErr := rfl
@[simp] theorem State.updCtx_hostMem (s : State) (e x : Nat) (f : Ctx → Ctx) : (s.updCtx e x f).hostMem = s.hostMem := rfl
@[simp] theorem State.updCtx_guestMem (s : State) (e x : Nat) (f : Ctx → Ctx) : (s.updCtx e x f).guestMem = s.guestMem := rfl
@[simp] theorem State.updCtx_posted (s : State) (e x : Nat) (f : Ctx → Ctx) : (s.updCtx e x f).posted = s.posted := rfl
@[simp] theorem State.updCtx_retries (s : State) (e x : Nat) (f : Ctx → Ctx) : (s.updCtx e x f).retries = s.retries := rfl
@[simp] theorem State.updCtx_walks (s : State) (e x : Nat) (f : Ctx → Ctx) : (s.updCtx e x f).walks = s.walks := rfl
@[simp] theorem State.updCtx_invals (s : State) (e x : Nat) (f : Ctx → Ctx) : (s.updCtx e x f).invals = s.invals := rfl
@[simp] theorem State.updCtx_nextInval (s : State) (e x : Nat) (f : Ctx → Ctx) : (s.updCtx e x f).nextInval = s.nextInval := rfl
@[simp] theorem State.updCtx_queues (s : State) (e x : Nat) (f : Ctx → Ctx) : (s.updCtx e x f).queues = s.queues := rfl
@[simp] theorem State.updCtx_reeveRr (s : State) (e x : Nat) (f : Ctx → Ctx) : (s.updCtx e x f).reeveRr = s.reeveRr := rfl
@[simp] theorem State.updCtx_reeveCyc (s : State) (e x : Nat) (f : Ctx → Ctx) : (s.updCtx e x f).reeveCyc = s.reeveCyc := rfl
@[simp] theorem State.updCtx_notices (s : State) (e x : Nat) (f : Ctx → Ctx) : (s.updCtx e x f).notices = s.notices := rfl
@[simp] theorem State.updCtx_evictions (s : State) (e x : Nat) (f : Ctx → Ctx) : (s.updCtx e x f).evictions = s.evictions := rfl
@[simp] theorem State.updCtx_restored (s : State) (e x : Nat) (f : Ctx → Ctx) : (s.updCtx e x f).restored = s.restored := rfl
@[simp] theorem State.updCtx_rings (s : State) (e x : Nat) (f : Ctx → Ctx) : (s.updCtx e x f).rings = s.rings := rfl
@[simp] theorem State.updCtx_eth (s : State) (e x : Nat) (f : Ctx → Ctx) : (s.updCtx e x f).eth = s.eth := rfl
@[simp] theorem State.updCtx_kports (s : State) (e x : Nat) (f : Ctx → Ctx) : (s.updCtx e x f).kports = s.kports := rfl
@[simp] theorem State.updCtx_links (s : State) (e x : Nat) (f : Ctx → Ctx) : (s.updCtx e x f).links = s.links := rfl
@[simp] theorem State.updCtx_remotes (s : State) (e x : Nat) (f : Ctx → Ctx) : (s.updCtx e x f).remotes = s.remotes := rfl
@[simp] theorem State.updCtx_nextRid (s : State) (e x : Nat) (f : Ctx → Ctx) : (s.updCtx e x f).nextRid = s.nextRid := rfl
@[simp] theorem State.updCtx_guest (s : State) (e x : Nat) (f : Ctx → Ctx) : (s.updCtx e x f).guest = s.guest := rfl
@[simp] theorem State.updCtx_dev (s : State) (e x : Nat) (f : Ctx → Ctx) : (s.updCtx e x f).dev = s.dev := rfl
@[simp] theorem State.updCtx_out (s : State) (e x : Nat) (f : Ctx → Ctx) : (s.updCtx e x f).out = s.out := rfl
@[simp] theorem State.updCtx_nextFault (s : State) (e x : Nat) (f : Ctx → Ctx) : (s.updCtx e x f).nextFault = s.nextFault := rfl
@[simp] theorem State.updCtx_nextCmd (s : State) (e x : Nat) (f : Ctx → Ctx) : (s.updCtx e x f).nextCmd = s.nextCmd := rfl

/-! State.updCluster -/

@[simp] theorem State.updCluster_cur (s : State) (c : Nat) (f : Cluster → Cluster) : (s.updCluster c f).cur = s.cur := rfl
@[simp] theorem State.updCluster_site (s : State) (c : Nat) (f : Cluster → Cluster) : (s.updCluster c f).site = s.site := rfl
@[simp] theorem State.updCluster_arg (s : State) (c : Nat) (f : Cluster → Cluster) : (s.updCluster c f).arg = s.arg := rfl
@[simp] theorem State.updCluster_agenda (s : State) (c : Nat) (f : Cluster → Cluster) : (s.updCluster c f).agenda = s.agenda := rfl
@[simp] theorem State.updCluster_inputs (s : State) (c : Nat) (f : Cluster → Cluster) : (s.updCluster c f).inputs = s.inputs := rfl
@[simp] theorem State.updCluster_stalled (s : State) (c : Nat) (f : Cluster → Cluster) : (s.updCluster c f).stalled = s.stalled := rfl
@[simp] theorem State.updCluster_turn (s : State) (c : Nat) (f : Cluster → Cluster) : (s.updCluster c f).turn = s.turn := rfl
@[simp] theorem State.updCluster_free (s : State) (c : Nat) (f : Cluster → Cluster) : (s.updCluster c f).free = s.free := rfl
@[simp] theorem State.updCluster_seqs (s : State) (c : Nat) (f : Cluster → Cluster) : (s.updCluster c f).seqs = s.seqs := rfl
@[simp] theorem State.updCluster_elems (s : State) (c : Nat) (f : Cluster → Cluster) : (s.updCluster c f).elems = s.elems := rfl
@[simp] theorem State.updCluster_dieTlb (s : State) (c : Nat) (f : Cluster → Cluster) : (s.updCluster c f).dieTlb = s.dieTlb := rfl
@[simp] theorem State.updCluster_places (s : State) (c : Nat) (f : Cluster → Cluster) : (s.updCluster c f).places = s.places := rfl
@[simp] theorem State.updCluster_pa (s : State) (c : Nat) (f : Cluster → Cluster) : (s.updCluster c f).pa = s.pa := rfl
@[simp] theorem State.updCluster_releases (s : State) (c : Nat) (f : Cluster → Cluster) : (s.updCluster c f).releases = s.releases := rfl
@[simp] theorem State.updCluster_spills (s : State) (c : Nat) (f : Cluster → Cluster) : (s.updCluster c f).spills = s.spills := rfl
@[simp] theorem State.updCluster_hbm (s : State) (c : Nat) (f : Cluster → Cluster) : (s.updCluster c f).hbm = s.hbm := rfl
@[simp] theorem State.updCluster_hbmKey (s : State) (c : Nat) (f : Cluster → Cluster) : (s.updCluster c f).hbmKey = s.hbmKey := rfl
@[simp] theorem State.updCluster_hbmErr (s : State) (c : Nat) (f : Cluster → Cluster) : (s.updCluster c f).hbmErr = s.hbmErr := rfl
@[simp] theorem State.updCluster_hostMem (s : State) (c : Nat) (f : Cluster → Cluster) : (s.updCluster c f).hostMem = s.hostMem := rfl
@[simp] theorem State.updCluster_guestMem (s : State) (c : Nat) (f : Cluster → Cluster) : (s.updCluster c f).guestMem = s.guestMem := rfl
@[simp] theorem State.updCluster_posted (s : State) (c : Nat) (f : Cluster → Cluster) : (s.updCluster c f).posted = s.posted := rfl
@[simp] theorem State.updCluster_retries (s : State) (c : Nat) (f : Cluster → Cluster) : (s.updCluster c f).retries = s.retries := rfl
@[simp] theorem State.updCluster_walks (s : State) (c : Nat) (f : Cluster → Cluster) : (s.updCluster c f).walks = s.walks := rfl
@[simp] theorem State.updCluster_invals (s : State) (c : Nat) (f : Cluster → Cluster) : (s.updCluster c f).invals = s.invals := rfl
@[simp] theorem State.updCluster_nextInval (s : State) (c : Nat) (f : Cluster → Cluster) : (s.updCluster c f).nextInval = s.nextInval := rfl
@[simp] theorem State.updCluster_queues (s : State) (c : Nat) (f : Cluster → Cluster) : (s.updCluster c f).queues = s.queues := rfl
@[simp] theorem State.updCluster_reeveRr (s : State) (c : Nat) (f : Cluster → Cluster) : (s.updCluster c f).reeveRr = s.reeveRr := rfl
@[simp] theorem State.updCluster_reeveCyc (s : State) (c : Nat) (f : Cluster → Cluster) : (s.updCluster c f).reeveCyc = s.reeveCyc := rfl
@[simp] theorem State.updCluster_notices (s : State) (c : Nat) (f : Cluster → Cluster) : (s.updCluster c f).notices = s.notices := rfl
@[simp] theorem State.updCluster_evictions (s : State) (c : Nat) (f : Cluster → Cluster) : (s.updCluster c f).evictions = s.evictions := rfl
@[simp] theorem State.updCluster_restored (s : State) (c : Nat) (f : Cluster → Cluster) : (s.updCluster c f).restored = s.restored := rfl
@[simp] theorem State.updCluster_rings (s : State) (c : Nat) (f : Cluster → Cluster) : (s.updCluster c f).rings = s.rings := rfl
@[simp] theorem State.updCluster_eth (s : State) (c : Nat) (f : Cluster → Cluster) : (s.updCluster c f).eth = s.eth := rfl
@[simp] theorem State.updCluster_kports (s : State) (c : Nat) (f : Cluster → Cluster) : (s.updCluster c f).kports = s.kports := rfl
@[simp] theorem State.updCluster_links (s : State) (c : Nat) (f : Cluster → Cluster) : (s.updCluster c f).links = s.links := rfl
@[simp] theorem State.updCluster_remotes (s : State) (c : Nat) (f : Cluster → Cluster) : (s.updCluster c f).remotes = s.remotes := rfl
@[simp] theorem State.updCluster_nextRid (s : State) (c : Nat) (f : Cluster → Cluster) : (s.updCluster c f).nextRid = s.nextRid := rfl
@[simp] theorem State.updCluster_guest (s : State) (c : Nat) (f : Cluster → Cluster) : (s.updCluster c f).guest = s.guest := rfl
@[simp] theorem State.updCluster_dev (s : State) (c : Nat) (f : Cluster → Cluster) : (s.updCluster c f).dev = s.dev := rfl
@[simp] theorem State.updCluster_out (s : State) (c : Nat) (f : Cluster → Cluster) : (s.updCluster c f).out = s.out := rfl
@[simp] theorem State.updCluster_nextFault (s : State) (c : Nat) (f : Cluster → Cluster) : (s.updCluster c f).nextFault = s.nextFault := rfl
@[simp] theorem State.updCluster_nextCmd (s : State) (c : Nat) (f : Cluster → Cluster) : (s.updCluster c f).nextCmd = s.nextCmd := rfl

/-! State.updQueue -/

@[simp] theorem State.updQueue_cur (s : State) (q : Nat) (f : Queue → Queue) : (s.updQueue q f).cur = s.cur := rfl
@[simp] theorem State.updQueue_site (s : State) (q : Nat) (f : Queue → Queue) : (s.updQueue q f).site = s.site := rfl
@[simp] theorem State.updQueue_arg (s : State) (q : Nat) (f : Queue → Queue) : (s.updQueue q f).arg = s.arg := rfl
@[simp] theorem State.updQueue_agenda (s : State) (q : Nat) (f : Queue → Queue) : (s.updQueue q f).agenda = s.agenda := rfl
@[simp] theorem State.updQueue_inputs (s : State) (q : Nat) (f : Queue → Queue) : (s.updQueue q f).inputs = s.inputs := rfl
@[simp] theorem State.updQueue_stalled (s : State) (q : Nat) (f : Queue → Queue) : (s.updQueue q f).stalled = s.stalled := rfl
@[simp] theorem State.updQueue_turn (s : State) (q : Nat) (f : Queue → Queue) : (s.updQueue q f).turn = s.turn := rfl
@[simp] theorem State.updQueue_free (s : State) (q : Nat) (f : Queue → Queue) : (s.updQueue q f).free = s.free := rfl
@[simp] theorem State.updQueue_seqs (s : State) (q : Nat) (f : Queue → Queue) : (s.updQueue q f).seqs = s.seqs := rfl
@[simp] theorem State.updQueue_elems (s : State) (q : Nat) (f : Queue → Queue) : (s.updQueue q f).elems = s.elems := rfl
@[simp] theorem State.updQueue_clusters (s : State) (q : Nat) (f : Queue → Queue) : (s.updQueue q f).clusters = s.clusters := rfl
@[simp] theorem State.updQueue_dieTlb (s : State) (q : Nat) (f : Queue → Queue) : (s.updQueue q f).dieTlb = s.dieTlb := rfl
@[simp] theorem State.updQueue_places (s : State) (q : Nat) (f : Queue → Queue) : (s.updQueue q f).places = s.places := rfl
@[simp] theorem State.updQueue_pa (s : State) (q : Nat) (f : Queue → Queue) : (s.updQueue q f).pa = s.pa := rfl
@[simp] theorem State.updQueue_releases (s : State) (q : Nat) (f : Queue → Queue) : (s.updQueue q f).releases = s.releases := rfl
@[simp] theorem State.updQueue_spills (s : State) (q : Nat) (f : Queue → Queue) : (s.updQueue q f).spills = s.spills := rfl
@[simp] theorem State.updQueue_hbm (s : State) (q : Nat) (f : Queue → Queue) : (s.updQueue q f).hbm = s.hbm := rfl
@[simp] theorem State.updQueue_hbmKey (s : State) (q : Nat) (f : Queue → Queue) : (s.updQueue q f).hbmKey = s.hbmKey := rfl
@[simp] theorem State.updQueue_hbmErr (s : State) (q : Nat) (f : Queue → Queue) : (s.updQueue q f).hbmErr = s.hbmErr := rfl
@[simp] theorem State.updQueue_hostMem (s : State) (q : Nat) (f : Queue → Queue) : (s.updQueue q f).hostMem = s.hostMem := rfl
@[simp] theorem State.updQueue_guestMem (s : State) (q : Nat) (f : Queue → Queue) : (s.updQueue q f).guestMem = s.guestMem := rfl
@[simp] theorem State.updQueue_posted (s : State) (q : Nat) (f : Queue → Queue) : (s.updQueue q f).posted = s.posted := rfl
@[simp] theorem State.updQueue_retries (s : State) (q : Nat) (f : Queue → Queue) : (s.updQueue q f).retries = s.retries := rfl
@[simp] theorem State.updQueue_walks (s : State) (q : Nat) (f : Queue → Queue) : (s.updQueue q f).walks = s.walks := rfl
@[simp] theorem State.updQueue_invals (s : State) (q : Nat) (f : Queue → Queue) : (s.updQueue q f).invals = s.invals := rfl
@[simp] theorem State.updQueue_nextInval (s : State) (q : Nat) (f : Queue → Queue) : (s.updQueue q f).nextInval = s.nextInval := rfl
@[simp] theorem State.updQueue_reeveRr (s : State) (q : Nat) (f : Queue → Queue) : (s.updQueue q f).reeveRr = s.reeveRr := rfl
@[simp] theorem State.updQueue_reeveCyc (s : State) (q : Nat) (f : Queue → Queue) : (s.updQueue q f).reeveCyc = s.reeveCyc := rfl
@[simp] theorem State.updQueue_notices (s : State) (q : Nat) (f : Queue → Queue) : (s.updQueue q f).notices = s.notices := rfl
@[simp] theorem State.updQueue_evictions (s : State) (q : Nat) (f : Queue → Queue) : (s.updQueue q f).evictions = s.evictions := rfl
@[simp] theorem State.updQueue_restored (s : State) (q : Nat) (f : Queue → Queue) : (s.updQueue q f).restored = s.restored := rfl
@[simp] theorem State.updQueue_rings (s : State) (q : Nat) (f : Queue → Queue) : (s.updQueue q f).rings = s.rings := rfl
@[simp] theorem State.updQueue_eth (s : State) (q : Nat) (f : Queue → Queue) : (s.updQueue q f).eth = s.eth := rfl
@[simp] theorem State.updQueue_kports (s : State) (q : Nat) (f : Queue → Queue) : (s.updQueue q f).kports = s.kports := rfl
@[simp] theorem State.updQueue_links (s : State) (q : Nat) (f : Queue → Queue) : (s.updQueue q f).links = s.links := rfl
@[simp] theorem State.updQueue_remotes (s : State) (q : Nat) (f : Queue → Queue) : (s.updQueue q f).remotes = s.remotes := rfl
@[simp] theorem State.updQueue_nextRid (s : State) (q : Nat) (f : Queue → Queue) : (s.updQueue q f).nextRid = s.nextRid := rfl
@[simp] theorem State.updQueue_guest (s : State) (q : Nat) (f : Queue → Queue) : (s.updQueue q f).guest = s.guest := rfl
@[simp] theorem State.updQueue_dev (s : State) (q : Nat) (f : Queue → Queue) : (s.updQueue q f).dev = s.dev := rfl
@[simp] theorem State.updQueue_out (s : State) (q : Nat) (f : Queue → Queue) : (s.updQueue q f).out = s.out := rfl
@[simp] theorem State.updQueue_nextFault (s : State) (q : Nat) (f : Queue → Queue) : (s.updQueue q f).nextFault = s.nextFault := rfl
@[simp] theorem State.updQueue_nextCmd (s : State) (q : Nat) (f : Queue → Queue) : (s.updQueue q f).nextCmd = s.nextCmd := rfl

/-! State.updDev -/

@[simp] theorem State.updDev_cur (s : State) (f : Dev → Dev) : (s.updDev f).cur = s.cur := rfl
@[simp] theorem State.updDev_site (s : State) (f : Dev → Dev) : (s.updDev f).site = s.site := rfl
@[simp] theorem State.updDev_arg (s : State) (f : Dev → Dev) : (s.updDev f).arg = s.arg := rfl
@[simp] theorem State.updDev_agenda (s : State) (f : Dev → Dev) : (s.updDev f).agenda = s.agenda := rfl
@[simp] theorem State.updDev_inputs (s : State) (f : Dev → Dev) : (s.updDev f).inputs = s.inputs := rfl
@[simp] theorem State.updDev_stalled (s : State) (f : Dev → Dev) : (s.updDev f).stalled = s.stalled := rfl
@[simp] theorem State.updDev_turn (s : State) (f : Dev → Dev) : (s.updDev f).turn = s.turn := rfl
@[simp] theorem State.updDev_free (s : State) (f : Dev → Dev) : (s.updDev f).free = s.free := rfl
@[simp] theorem State.updDev_seqs (s : State) (f : Dev → Dev) : (s.updDev f).seqs = s.seqs := rfl
@[simp] theorem State.updDev_elems (s : State) (f : Dev → Dev) : (s.updDev f).elems = s.elems := rfl
@[simp] theorem State.updDev_clusters (s : State) (f : Dev → Dev) : (s.updDev f).clusters = s.clusters := rfl
@[simp] theorem State.updDev_dieTlb (s : State) (f : Dev → Dev) : (s.updDev f).dieTlb = s.dieTlb := rfl
@[simp] theorem State.updDev_places (s : State) (f : Dev → Dev) : (s.updDev f).places = s.places := rfl
@[simp] theorem State.updDev_pa (s : State) (f : Dev → Dev) : (s.updDev f).pa = s.pa := rfl
@[simp] theorem State.updDev_releases (s : State) (f : Dev → Dev) : (s.updDev f).releases = s.releases := rfl
@[simp] theorem State.updDev_spills (s : State) (f : Dev → Dev) : (s.updDev f).spills = s.spills := rfl
@[simp] theorem State.updDev_hbm (s : State) (f : Dev → Dev) : (s.updDev f).hbm = s.hbm := rfl
@[simp] theorem State.updDev_hbmKey (s : State) (f : Dev → Dev) : (s.updDev f).hbmKey = s.hbmKey := rfl
@[simp] theorem State.updDev_hbmErr (s : State) (f : Dev → Dev) : (s.updDev f).hbmErr = s.hbmErr := rfl
@[simp] theorem State.updDev_hostMem (s : State) (f : Dev → Dev) : (s.updDev f).hostMem = s.hostMem := rfl
@[simp] theorem State.updDev_guestMem (s : State) (f : Dev → Dev) : (s.updDev f).guestMem = s.guestMem := rfl
@[simp] theorem State.updDev_posted (s : State) (f : Dev → Dev) : (s.updDev f).posted = s.posted := rfl
@[simp] theorem State.updDev_retries (s : State) (f : Dev → Dev) : (s.updDev f).retries = s.retries := rfl
@[simp] theorem State.updDev_walks (s : State) (f : Dev → Dev) : (s.updDev f).walks = s.walks := rfl
@[simp] theorem State.updDev_invals (s : State) (f : Dev → Dev) : (s.updDev f).invals = s.invals := rfl
@[simp] theorem State.updDev_nextInval (s : State) (f : Dev → Dev) : (s.updDev f).nextInval = s.nextInval := rfl
@[simp] theorem State.updDev_queues (s : State) (f : Dev → Dev) : (s.updDev f).queues = s.queues := rfl
@[simp] theorem State.updDev_reeveRr (s : State) (f : Dev → Dev) : (s.updDev f).reeveRr = s.reeveRr := rfl
@[simp] theorem State.updDev_reeveCyc (s : State) (f : Dev → Dev) : (s.updDev f).reeveCyc = s.reeveCyc := rfl
@[simp] theorem State.updDev_notices (s : State) (f : Dev → Dev) : (s.updDev f).notices = s.notices := rfl
@[simp] theorem State.updDev_evictions (s : State) (f : Dev → Dev) : (s.updDev f).evictions = s.evictions := rfl
@[simp] theorem State.updDev_restored (s : State) (f : Dev → Dev) : (s.updDev f).restored = s.restored := rfl
@[simp] theorem State.updDev_rings (s : State) (f : Dev → Dev) : (s.updDev f).rings = s.rings := rfl
@[simp] theorem State.updDev_eth (s : State) (f : Dev → Dev) : (s.updDev f).eth = s.eth := rfl
@[simp] theorem State.updDev_kports (s : State) (f : Dev → Dev) : (s.updDev f).kports = s.kports := rfl
@[simp] theorem State.updDev_links (s : State) (f : Dev → Dev) : (s.updDev f).links = s.links := rfl
@[simp] theorem State.updDev_remotes (s : State) (f : Dev → Dev) : (s.updDev f).remotes = s.remotes := rfl
@[simp] theorem State.updDev_nextRid (s : State) (f : Dev → Dev) : (s.updDev f).nextRid = s.nextRid := rfl
@[simp] theorem State.updDev_guest (s : State) (f : Dev → Dev) : (s.updDev f).guest = s.guest := rfl
@[simp] theorem State.updDev_out (s : State) (f : Dev → Dev) : (s.updDev f).out = s.out := rfl
@[simp] theorem State.updDev_nextFault (s : State) (f : Dev → Dev) : (s.updDev f).nextFault = s.nextFault := rfl
@[simp] theorem State.updDev_nextCmd (s : State) (f : Dev → Dev) : (s.updDev f).nextCmd = s.nextCmd := rfl

/-! State.updGuest -/

@[simp] theorem State.updGuest_cur (s : State) (f : Guest → Guest) : (s.updGuest f).cur = s.cur := rfl
@[simp] theorem State.updGuest_site (s : State) (f : Guest → Guest) : (s.updGuest f).site = s.site := rfl
@[simp] theorem State.updGuest_arg (s : State) (f : Guest → Guest) : (s.updGuest f).arg = s.arg := rfl
@[simp] theorem State.updGuest_agenda (s : State) (f : Guest → Guest) : (s.updGuest f).agenda = s.agenda := rfl
@[simp] theorem State.updGuest_inputs (s : State) (f : Guest → Guest) : (s.updGuest f).inputs = s.inputs := rfl
@[simp] theorem State.updGuest_stalled (s : State) (f : Guest → Guest) : (s.updGuest f).stalled = s.stalled := rfl
@[simp] theorem State.updGuest_turn (s : State) (f : Guest → Guest) : (s.updGuest f).turn = s.turn := rfl
@[simp] theorem State.updGuest_free (s : State) (f : Guest → Guest) : (s.updGuest f).free = s.free := rfl
@[simp] theorem State.updGuest_seqs (s : State) (f : Guest → Guest) : (s.updGuest f).seqs = s.seqs := rfl
@[simp] theorem State.updGuest_elems (s : State) (f : Guest → Guest) : (s.updGuest f).elems = s.elems := rfl
@[simp] theorem State.updGuest_clusters (s : State) (f : Guest → Guest) : (s.updGuest f).clusters = s.clusters := rfl
@[simp] theorem State.updGuest_dieTlb (s : State) (f : Guest → Guest) : (s.updGuest f).dieTlb = s.dieTlb := rfl
@[simp] theorem State.updGuest_places (s : State) (f : Guest → Guest) : (s.updGuest f).places = s.places := rfl
@[simp] theorem State.updGuest_pa (s : State) (f : Guest → Guest) : (s.updGuest f).pa = s.pa := rfl
@[simp] theorem State.updGuest_releases (s : State) (f : Guest → Guest) : (s.updGuest f).releases = s.releases := rfl
@[simp] theorem State.updGuest_spills (s : State) (f : Guest → Guest) : (s.updGuest f).spills = s.spills := rfl
@[simp] theorem State.updGuest_hbm (s : State) (f : Guest → Guest) : (s.updGuest f).hbm = s.hbm := rfl
@[simp] theorem State.updGuest_hbmKey (s : State) (f : Guest → Guest) : (s.updGuest f).hbmKey = s.hbmKey := rfl
@[simp] theorem State.updGuest_hbmErr (s : State) (f : Guest → Guest) : (s.updGuest f).hbmErr = s.hbmErr := rfl
@[simp] theorem State.updGuest_hostMem (s : State) (f : Guest → Guest) : (s.updGuest f).hostMem = s.hostMem := rfl
@[simp] theorem State.updGuest_guestMem (s : State) (f : Guest → Guest) : (s.updGuest f).guestMem = s.guestMem := rfl
@[simp] theorem State.updGuest_posted (s : State) (f : Guest → Guest) : (s.updGuest f).posted = s.posted := rfl
@[simp] theorem State.updGuest_retries (s : State) (f : Guest → Guest) : (s.updGuest f).retries = s.retries := rfl
@[simp] theorem State.updGuest_walks (s : State) (f : Guest → Guest) : (s.updGuest f).walks = s.walks := rfl
@[simp] theorem State.updGuest_invals (s : State) (f : Guest → Guest) : (s.updGuest f).invals = s.invals := rfl
@[simp] theorem State.updGuest_nextInval (s : State) (f : Guest → Guest) : (s.updGuest f).nextInval = s.nextInval := rfl
@[simp] theorem State.updGuest_queues (s : State) (f : Guest → Guest) : (s.updGuest f).queues = s.queues := rfl
@[simp] theorem State.updGuest_reeveRr (s : State) (f : Guest → Guest) : (s.updGuest f).reeveRr = s.reeveRr := rfl
@[simp] theorem State.updGuest_reeveCyc (s : State) (f : Guest → Guest) : (s.updGuest f).reeveCyc = s.reeveCyc := rfl
@[simp] theorem State.updGuest_notices (s : State) (f : Guest → Guest) : (s.updGuest f).notices = s.notices := rfl
@[simp] theorem State.updGuest_evictions (s : State) (f : Guest → Guest) : (s.updGuest f).evictions = s.evictions := rfl
@[simp] theorem State.updGuest_restored (s : State) (f : Guest → Guest) : (s.updGuest f).restored = s.restored := rfl
@[simp] theorem State.updGuest_rings (s : State) (f : Guest → Guest) : (s.updGuest f).rings = s.rings := rfl
@[simp] theorem State.updGuest_eth (s : State) (f : Guest → Guest) : (s.updGuest f).eth = s.eth := rfl
@[simp] theorem State.updGuest_kports (s : State) (f : Guest → Guest) : (s.updGuest f).kports = s.kports := rfl
@[simp] theorem State.updGuest_links (s : State) (f : Guest → Guest) : (s.updGuest f).links = s.links := rfl
@[simp] theorem State.updGuest_remotes (s : State) (f : Guest → Guest) : (s.updGuest f).remotes = s.remotes := rfl
@[simp] theorem State.updGuest_nextRid (s : State) (f : Guest → Guest) : (s.updGuest f).nextRid = s.nextRid := rfl
@[simp] theorem State.updGuest_dev (s : State) (f : Guest → Guest) : (s.updGuest f).dev = s.dev := rfl
@[simp] theorem State.updGuest_out (s : State) (f : Guest → Guest) : (s.updGuest f).out = s.out := rfl
@[simp] theorem State.updGuest_nextFault (s : State) (f : Guest → Guest) : (s.updGuest f).nextFault = s.nextFault := rfl
@[simp] theorem State.updGuest_nextCmd (s : State) (f : Guest → Guest) : (s.updGuest f).nextCmd = s.nextCmd := rfl

/-! State.emitOut -/

@[simp] theorem State.emitOut_cur (s : State) (o : Out) : (s.emitOut o).cur = s.cur := rfl
@[simp] theorem State.emitOut_site (s : State) (o : Out) : (s.emitOut o).site = s.site := rfl
@[simp] theorem State.emitOut_arg (s : State) (o : Out) : (s.emitOut o).arg = s.arg := rfl
@[simp] theorem State.emitOut_agenda (s : State) (o : Out) : (s.emitOut o).agenda = s.agenda := rfl
@[simp] theorem State.emitOut_inputs (s : State) (o : Out) : (s.emitOut o).inputs = s.inputs := rfl
@[simp] theorem State.emitOut_stalled (s : State) (o : Out) : (s.emitOut o).stalled = s.stalled := rfl
@[simp] theorem State.emitOut_turn (s : State) (o : Out) : (s.emitOut o).turn = s.turn := rfl
@[simp] theorem State.emitOut_free (s : State) (o : Out) : (s.emitOut o).free = s.free := rfl
@[simp] theorem State.emitOut_seqs (s : State) (o : Out) : (s.emitOut o).seqs = s.seqs := rfl
@[simp] theorem State.emitOut_elems (s : State) (o : Out) : (s.emitOut o).elems = s.elems := rfl
@[simp] theorem State.emitOut_clusters (s : State) (o : Out) : (s.emitOut o).clusters = s.clusters := rfl
@[simp] theorem State.emitOut_dieTlb (s : State) (o : Out) : (s.emitOut o).dieTlb = s.dieTlb := rfl
@[simp] theorem State.emitOut_places (s : State) (o : Out) : (s.emitOut o).places = s.places := rfl
@[simp] theorem State.emitOut_pa (s : State) (o : Out) : (s.emitOut o).pa = s.pa := rfl
@[simp] theorem State.emitOut_releases (s : State) (o : Out) : (s.emitOut o).releases = s.releases := rfl
@[simp] theorem State.emitOut_spills (s : State) (o : Out) : (s.emitOut o).spills = s.spills := rfl
@[simp] theorem State.emitOut_hbm (s : State) (o : Out) : (s.emitOut o).hbm = s.hbm := rfl
@[simp] theorem State.emitOut_hbmKey (s : State) (o : Out) : (s.emitOut o).hbmKey = s.hbmKey := rfl
@[simp] theorem State.emitOut_hbmErr (s : State) (o : Out) : (s.emitOut o).hbmErr = s.hbmErr := rfl
@[simp] theorem State.emitOut_hostMem (s : State) (o : Out) : (s.emitOut o).hostMem = s.hostMem := rfl
@[simp] theorem State.emitOut_guestMem (s : State) (o : Out) : (s.emitOut o).guestMem = s.guestMem := rfl
@[simp] theorem State.emitOut_posted (s : State) (o : Out) : (s.emitOut o).posted = s.posted := rfl
@[simp] theorem State.emitOut_retries (s : State) (o : Out) : (s.emitOut o).retries = s.retries := rfl
@[simp] theorem State.emitOut_walks (s : State) (o : Out) : (s.emitOut o).walks = s.walks := rfl
@[simp] theorem State.emitOut_invals (s : State) (o : Out) : (s.emitOut o).invals = s.invals := rfl
@[simp] theorem State.emitOut_nextInval (s : State) (o : Out) : (s.emitOut o).nextInval = s.nextInval := rfl
@[simp] theorem State.emitOut_queues (s : State) (o : Out) : (s.emitOut o).queues = s.queues := rfl
@[simp] theorem State.emitOut_reeveRr (s : State) (o : Out) : (s.emitOut o).reeveRr = s.reeveRr := rfl
@[simp] theorem State.emitOut_reeveCyc (s : State) (o : Out) : (s.emitOut o).reeveCyc = s.reeveCyc := rfl
@[simp] theorem State.emitOut_notices (s : State) (o : Out) : (s.emitOut o).notices = s.notices := rfl
@[simp] theorem State.emitOut_evictions (s : State) (o : Out) : (s.emitOut o).evictions = s.evictions := rfl
@[simp] theorem State.emitOut_restored (s : State) (o : Out) : (s.emitOut o).restored = s.restored := rfl
@[simp] theorem State.emitOut_rings (s : State) (o : Out) : (s.emitOut o).rings = s.rings := rfl
@[simp] theorem State.emitOut_eth (s : State) (o : Out) : (s.emitOut o).eth = s.eth := rfl
@[simp] theorem State.emitOut_kports (s : State) (o : Out) : (s.emitOut o).kports = s.kports := rfl
@[simp] theorem State.emitOut_links (s : State) (o : Out) : (s.emitOut o).links = s.links := rfl
@[simp] theorem State.emitOut_remotes (s : State) (o : Out) : (s.emitOut o).remotes = s.remotes := rfl
@[simp] theorem State.emitOut_nextRid (s : State) (o : Out) : (s.emitOut o).nextRid = s.nextRid := rfl
@[simp] theorem State.emitOut_guest (s : State) (o : Out) : (s.emitOut o).guest = s.guest := rfl
@[simp] theorem State.emitOut_dev (s : State) (o : Out) : (s.emitOut o).dev = s.dev := rfl
@[simp] theorem State.emitOut_nextFault (s : State) (o : Out) : (s.emitOut o).nextFault = s.nextFault := rfl
@[simp] theorem State.emitOut_nextCmd (s : State) (o : Out) : (s.emitOut o).nextCmd = s.nextCmd := rfl

/-! State.count -/

@[simp] theorem State.count_cur (s : State) (o n : Nat) : (s.count o n).cur = s.cur := rfl
@[simp] theorem State.count_site (s : State) (o n : Nat) : (s.count o n).site = s.site := rfl
@[simp] theorem State.count_arg (s : State) (o n : Nat) : (s.count o n).arg = s.arg := rfl
@[simp] theorem State.count_agenda (s : State) (o n : Nat) : (s.count o n).agenda = s.agenda := rfl
@[simp] theorem State.count_inputs (s : State) (o n : Nat) : (s.count o n).inputs = s.inputs := rfl
@[simp] theorem State.count_stalled (s : State) (o n : Nat) : (s.count o n).stalled = s.stalled := rfl
@[simp] theorem State.count_turn (s : State) (o n : Nat) : (s.count o n).turn = s.turn := rfl
@[simp] theorem State.count_free (s : State) (o n : Nat) : (s.count o n).free = s.free := rfl
@[simp] theorem State.count_seqs (s : State) (o n : Nat) : (s.count o n).seqs = s.seqs := rfl
@[simp] theorem State.count_elems (s : State) (o n : Nat) : (s.count o n).elems = s.elems := rfl
@[simp] theorem State.count_clusters (s : State) (o n : Nat) : (s.count o n).clusters = s.clusters := rfl
@[simp] theorem State.count_dieTlb (s : State) (o n : Nat) : (s.count o n).dieTlb = s.dieTlb := rfl
@[simp] theorem State.count_places (s : State) (o n : Nat) : (s.count o n).places = s.places := rfl
@[simp] theorem State.count_pa (s : State) (o n : Nat) : (s.count o n).pa = s.pa := rfl
@[simp] theorem State.count_releases (s : State) (o n : Nat) : (s.count o n).releases = s.releases := rfl
@[simp] theorem State.count_spills (s : State) (o n : Nat) : (s.count o n).spills = s.spills := rfl
@[simp] theorem State.count_hbm (s : State) (o n : Nat) : (s.count o n).hbm = s.hbm := rfl
@[simp] theorem State.count_hbmKey (s : State) (o n : Nat) : (s.count o n).hbmKey = s.hbmKey := rfl
@[simp] theorem State.count_hbmErr (s : State) (o n : Nat) : (s.count o n).hbmErr = s.hbmErr := rfl
@[simp] theorem State.count_hostMem (s : State) (o n : Nat) : (s.count o n).hostMem = s.hostMem := rfl
@[simp] theorem State.count_guestMem (s : State) (o n : Nat) : (s.count o n).guestMem = s.guestMem := rfl
@[simp] theorem State.count_posted (s : State) (o n : Nat) : (s.count o n).posted = s.posted := rfl
@[simp] theorem State.count_retries (s : State) (o n : Nat) : (s.count o n).retries = s.retries := rfl
@[simp] theorem State.count_walks (s : State) (o n : Nat) : (s.count o n).walks = s.walks := rfl
@[simp] theorem State.count_invals (s : State) (o n : Nat) : (s.count o n).invals = s.invals := rfl
@[simp] theorem State.count_nextInval (s : State) (o n : Nat) : (s.count o n).nextInval = s.nextInval := rfl
@[simp] theorem State.count_queues (s : State) (o n : Nat) : (s.count o n).queues = s.queues := rfl
@[simp] theorem State.count_reeveRr (s : State) (o n : Nat) : (s.count o n).reeveRr = s.reeveRr := rfl
@[simp] theorem State.count_reeveCyc (s : State) (o n : Nat) : (s.count o n).reeveCyc = s.reeveCyc := rfl
@[simp] theorem State.count_notices (s : State) (o n : Nat) : (s.count o n).notices = s.notices := rfl
@[simp] theorem State.count_evictions (s : State) (o n : Nat) : (s.count o n).evictions = s.evictions := rfl
@[simp] theorem State.count_restored (s : State) (o n : Nat) : (s.count o n).restored = s.restored := rfl
@[simp] theorem State.count_rings (s : State) (o n : Nat) : (s.count o n).rings = s.rings := rfl
@[simp] theorem State.count_eth (s : State) (o n : Nat) : (s.count o n).eth = s.eth := rfl
@[simp] theorem State.count_kports (s : State) (o n : Nat) : (s.count o n).kports = s.kports := rfl
@[simp] theorem State.count_links (s : State) (o n : Nat) : (s.count o n).links = s.links := rfl
@[simp] theorem State.count_remotes (s : State) (o n : Nat) : (s.count o n).remotes = s.remotes := rfl
@[simp] theorem State.count_nextRid (s : State) (o n : Nat) : (s.count o n).nextRid = s.nextRid := rfl
@[simp] theorem State.count_guest (s : State) (o n : Nat) : (s.count o n).guest = s.guest := rfl
@[simp] theorem State.count_out (s : State) (o n : Nat) : (s.count o n).out = s.out := rfl
@[simp] theorem State.count_nextFault (s : State) (o n : Nat) : (s.count o n).nextFault = s.nextFault := rfl
@[simp] theorem State.count_nextCmd (s : State) (o n : Nat) : (s.count o n).nextCmd = s.nextCmd := rfl

/-! State.due -/

@[simp] theorem State.due_cur (s : State) (ev : Instr) (a : Arg) : (s.due ev a).cur = s.cur := rfl
@[simp] theorem State.due_site (s : State) (ev : Instr) (a : Arg) : (s.due ev a).site = s.site := rfl
@[simp] theorem State.due_arg (s : State) (ev : Instr) (a : Arg) : (s.due ev a).arg = s.arg := rfl
@[simp] theorem State.due_inputs (s : State) (ev : Instr) (a : Arg) : (s.due ev a).inputs = s.inputs := rfl
@[simp] theorem State.due_stalled (s : State) (ev : Instr) (a : Arg) : (s.due ev a).stalled = s.stalled := rfl
@[simp] theorem State.due_turn (s : State) (ev : Instr) (a : Arg) : (s.due ev a).turn = s.turn := rfl
@[simp] theorem State.due_free (s : State) (ev : Instr) (a : Arg) : (s.due ev a).free = s.free := rfl
@[simp] theorem State.due_seqs (s : State) (ev : Instr) (a : Arg) : (s.due ev a).seqs = s.seqs := rfl
@[simp] theorem State.due_elems (s : State) (ev : Instr) (a : Arg) : (s.due ev a).elems = s.elems := rfl
@[simp] theorem State.due_clusters (s : State) (ev : Instr) (a : Arg) : (s.due ev a).clusters = s.clusters := rfl
@[simp] theorem State.due_dieTlb (s : State) (ev : Instr) (a : Arg) : (s.due ev a).dieTlb = s.dieTlb := rfl
@[simp] theorem State.due_places (s : State) (ev : Instr) (a : Arg) : (s.due ev a).places = s.places := rfl
@[simp] theorem State.due_pa (s : State) (ev : Instr) (a : Arg) : (s.due ev a).pa = s.pa := rfl
@[simp] theorem State.due_releases (s : State) (ev : Instr) (a : Arg) : (s.due ev a).releases = s.releases := rfl
@[simp] theorem State.due_spills (s : State) (ev : Instr) (a : Arg) : (s.due ev a).spills = s.spills := rfl
@[simp] theorem State.due_hbm (s : State) (ev : Instr) (a : Arg) : (s.due ev a).hbm = s.hbm := rfl
@[simp] theorem State.due_hbmKey (s : State) (ev : Instr) (a : Arg) : (s.due ev a).hbmKey = s.hbmKey := rfl
@[simp] theorem State.due_hbmErr (s : State) (ev : Instr) (a : Arg) : (s.due ev a).hbmErr = s.hbmErr := rfl
@[simp] theorem State.due_hostMem (s : State) (ev : Instr) (a : Arg) : (s.due ev a).hostMem = s.hostMem := rfl
@[simp] theorem State.due_guestMem (s : State) (ev : Instr) (a : Arg) : (s.due ev a).guestMem = s.guestMem := rfl
@[simp] theorem State.due_posted (s : State) (ev : Instr) (a : Arg) : (s.due ev a).posted = s.posted := rfl
@[simp] theorem State.due_retries (s : State) (ev : Instr) (a : Arg) : (s.due ev a).retries = s.retries := rfl
@[simp] theorem State.due_walks (s : State) (ev : Instr) (a : Arg) : (s.due ev a).walks = s.walks := rfl
@[simp] theorem State.due_invals (s : State) (ev : Instr) (a : Arg) : (s.due ev a).invals = s.invals := rfl
@[simp] theorem State.due_nextInval (s : State) (ev : Instr) (a : Arg) : (s.due ev a).nextInval = s.nextInval := rfl
@[simp] theorem State.due_queues (s : State) (ev : Instr) (a : Arg) : (s.due ev a).queues = s.queues := rfl
@[simp] theorem State.due_reeveRr (s : State) (ev : Instr) (a : Arg) : (s.due ev a).reeveRr = s.reeveRr := rfl
@[simp] theorem State.due_reeveCyc (s : State) (ev : Instr) (a : Arg) : (s.due ev a).reeveCyc = s.reeveCyc := rfl
@[simp] theorem State.due_notices (s : State) (ev : Instr) (a : Arg) : (s.due ev a).notices = s.notices := rfl
@[simp] theorem State.due_evictions (s : State) (ev : Instr) (a : Arg) : (s.due ev a).evictions = s.evictions := rfl
@[simp] theorem State.due_restored (s : State) (ev : Instr) (a : Arg) : (s.due ev a).restored = s.restored := rfl
@[simp] theorem State.due_rings (s : State) (ev : Instr) (a : Arg) : (s.due ev a).rings = s.rings := rfl
@[simp] theorem State.due_eth (s : State) (ev : Instr) (a : Arg) : (s.due ev a).eth = s.eth := rfl
@[simp] theorem State.due_kports (s : State) (ev : Instr) (a : Arg) : (s.due ev a).kports = s.kports := rfl
@[simp] theorem State.due_links (s : State) (ev : Instr) (a : Arg) : (s.due ev a).links = s.links := rfl
@[simp] theorem State.due_remotes (s : State) (ev : Instr) (a : Arg) : (s.due ev a).remotes = s.remotes := rfl
@[simp] theorem State.due_nextRid (s : State) (ev : Instr) (a : Arg) : (s.due ev a).nextRid = s.nextRid := rfl
@[simp] theorem State.due_guest (s : State) (ev : Instr) (a : Arg) : (s.due ev a).guest = s.guest := rfl
@[simp] theorem State.due_dev (s : State) (ev : Instr) (a : Arg) : (s.due ev a).dev = s.dev := rfl
@[simp] theorem State.due_out (s : State) (ev : Instr) (a : Arg) : (s.due ev a).out = s.out := rfl
@[simp] theorem State.due_nextFault (s : State) (ev : Instr) (a : Arg) : (s.due ev a).nextFault = s.nextFault := rfl
@[simp] theorem State.due_nextCmd (s : State) (ev : Instr) (a : Arg) : (s.due ev a).nextCmd = s.nextCmd := rfl

/-! State.draw -/

@[simp] theorem State.draw_cur (s : State) : (s.draw).cur = s.cur := rfl
@[simp] theorem State.draw_site (s : State) : (s.draw).site = s.site := rfl
@[simp] theorem State.draw_arg (s : State) : (s.draw).arg = s.arg := rfl
@[simp] theorem State.draw_agenda (s : State) : (s.draw).agenda = s.agenda := rfl
@[simp] theorem State.draw_inputs (s : State) : (s.draw).inputs = s.inputs := rfl
@[simp] theorem State.draw_stalled (s : State) : (s.draw).stalled = s.stalled := rfl
@[simp] theorem State.draw_turn (s : State) : (s.draw).turn = s.turn := rfl
@[simp] theorem State.draw_seqs (s : State) : (s.draw).seqs = s.seqs := rfl
@[simp] theorem State.draw_elems (s : State) : (s.draw).elems = s.elems := rfl
@[simp] theorem State.draw_clusters (s : State) : (s.draw).clusters = s.clusters := rfl
@[simp] theorem State.draw_dieTlb (s : State) : (s.draw).dieTlb = s.dieTlb := rfl
@[simp] theorem State.draw_places (s : State) : (s.draw).places = s.places := rfl
@[simp] theorem State.draw_pa (s : State) : (s.draw).pa = s.pa := rfl
@[simp] theorem State.draw_releases (s : State) : (s.draw).releases = s.releases := rfl
@[simp] theorem State.draw_spills (s : State) : (s.draw).spills = s.spills := rfl
@[simp] theorem State.draw_hbm (s : State) : (s.draw).hbm = s.hbm := rfl
@[simp] theorem State.draw_hbmKey (s : State) : (s.draw).hbmKey = s.hbmKey := rfl
@[simp] theorem State.draw_hbmErr (s : State) : (s.draw).hbmErr = s.hbmErr := rfl
@[simp] theorem State.draw_hostMem (s : State) : (s.draw).hostMem = s.hostMem := rfl
@[simp] theorem State.draw_guestMem (s : State) : (s.draw).guestMem = s.guestMem := rfl
@[simp] theorem State.draw_posted (s : State) : (s.draw).posted = s.posted := rfl
@[simp] theorem State.draw_retries (s : State) : (s.draw).retries = s.retries := rfl
@[simp] theorem State.draw_walks (s : State) : (s.draw).walks = s.walks := rfl
@[simp] theorem State.draw_invals (s : State) : (s.draw).invals = s.invals := rfl
@[simp] theorem State.draw_nextInval (s : State) : (s.draw).nextInval = s.nextInval := rfl
@[simp] theorem State.draw_queues (s : State) : (s.draw).queues = s.queues := rfl
@[simp] theorem State.draw_reeveRr (s : State) : (s.draw).reeveRr = s.reeveRr := rfl
@[simp] theorem State.draw_reeveCyc (s : State) : (s.draw).reeveCyc = s.reeveCyc := rfl
@[simp] theorem State.draw_notices (s : State) : (s.draw).notices = s.notices := rfl
@[simp] theorem State.draw_evictions (s : State) : (s.draw).evictions = s.evictions := rfl
@[simp] theorem State.draw_restored (s : State) : (s.draw).restored = s.restored := rfl
@[simp] theorem State.draw_rings (s : State) : (s.draw).rings = s.rings := rfl
@[simp] theorem State.draw_eth (s : State) : (s.draw).eth = s.eth := rfl
@[simp] theorem State.draw_kports (s : State) : (s.draw).kports = s.kports := rfl
@[simp] theorem State.draw_links (s : State) : (s.draw).links = s.links := rfl
@[simp] theorem State.draw_remotes (s : State) : (s.draw).remotes = s.remotes := rfl
@[simp] theorem State.draw_nextRid (s : State) : (s.draw).nextRid = s.nextRid := rfl
@[simp] theorem State.draw_guest (s : State) : (s.draw).guest = s.guest := rfl
@[simp] theorem State.draw_dev (s : State) : (s.draw).dev = s.dev := rfl
@[simp] theorem State.draw_out (s : State) : (s.draw).out = s.out := rfl
@[simp] theorem State.draw_nextFault (s : State) : (s.draw).nextFault = s.nextFault := rfl
@[simp] theorem State.draw_nextCmd (s : State) : (s.draw).nextCmd = s.nextCmd := rfl

/-! updPlace and updFrame -/

@[simp] theorem State.updPlace_cur (s : State) (p : Nat) (f : Placement → Placement) : (s.updPlace p f).cur = s.cur := by
  simp only [State.updPlace]; split <;> rfl
@[simp] theorem State.updPlace_site (s : State) (p : Nat) (f : Placement → Placement) : (s.updPlace p f).site = s.site := by
  simp only [State.updPlace]; split <;> rfl
@[simp] theorem State.updPlace_arg (s : State) (p : Nat) (f : Placement → Placement) : (s.updPlace p f).arg = s.arg := by
  simp only [State.updPlace]; split <;> rfl
@[simp] theorem State.updPlace_agenda (s : State) (p : Nat) (f : Placement → Placement) : (s.updPlace p f).agenda = s.agenda := by
  simp only [State.updPlace]; split <;> rfl
@[simp] theorem State.updPlace_inputs (s : State) (p : Nat) (f : Placement → Placement) : (s.updPlace p f).inputs = s.inputs := by
  simp only [State.updPlace]; split <;> rfl
@[simp] theorem State.updPlace_stalled (s : State) (p : Nat) (f : Placement → Placement) : (s.updPlace p f).stalled = s.stalled := by
  simp only [State.updPlace]; split <;> rfl
@[simp] theorem State.updPlace_turn (s : State) (p : Nat) (f : Placement → Placement) : (s.updPlace p f).turn = s.turn := by
  simp only [State.updPlace]; split <;> rfl
@[simp] theorem State.updPlace_free (s : State) (p : Nat) (f : Placement → Placement) : (s.updPlace p f).free = s.free := by
  simp only [State.updPlace]; split <;> rfl
@[simp] theorem State.updPlace_seqs (s : State) (p : Nat) (f : Placement → Placement) : (s.updPlace p f).seqs = s.seqs := by
  simp only [State.updPlace]; split <;> rfl
@[simp] theorem State.updPlace_elems (s : State) (p : Nat) (f : Placement → Placement) : (s.updPlace p f).elems = s.elems := by
  simp only [State.updPlace]; split <;> rfl
@[simp] theorem State.updPlace_clusters (s : State) (p : Nat) (f : Placement → Placement) : (s.updPlace p f).clusters = s.clusters := by
  simp only [State.updPlace]; split <;> rfl
@[simp] theorem State.updPlace_dieTlb (s : State) (p : Nat) (f : Placement → Placement) : (s.updPlace p f).dieTlb = s.dieTlb := by
  simp only [State.updPlace]; split <;> rfl
@[simp] theorem State.updPlace_pa (s : State) (p : Nat) (f : Placement → Placement) : (s.updPlace p f).pa = s.pa := by
  simp only [State.updPlace]; split <;> rfl
@[simp] theorem State.updPlace_releases (s : State) (p : Nat) (f : Placement → Placement) : (s.updPlace p f).releases = s.releases := by
  simp only [State.updPlace]; split <;> rfl
@[simp] theorem State.updPlace_spills (s : State) (p : Nat) (f : Placement → Placement) : (s.updPlace p f).spills = s.spills := by
  simp only [State.updPlace]; split <;> rfl
@[simp] theorem State.updPlace_hbm (s : State) (p : Nat) (f : Placement → Placement) : (s.updPlace p f).hbm = s.hbm := by
  simp only [State.updPlace]; split <;> rfl
@[simp] theorem State.updPlace_hbmKey (s : State) (p : Nat) (f : Placement → Placement) : (s.updPlace p f).hbmKey = s.hbmKey := by
  simp only [State.updPlace]; split <;> rfl
@[simp] theorem State.updPlace_hbmErr (s : State) (p : Nat) (f : Placement → Placement) : (s.updPlace p f).hbmErr = s.hbmErr := by
  simp only [State.updPlace]; split <;> rfl
@[simp] theorem State.updPlace_hostMem (s : State) (p : Nat) (f : Placement → Placement) : (s.updPlace p f).hostMem = s.hostMem := by
  simp only [State.updPlace]; split <;> rfl
@[simp] theorem State.updPlace_guestMem (s : State) (p : Nat) (f : Placement → Placement) : (s.updPlace p f).guestMem = s.guestMem := by
  simp only [State.updPlace]; split <;> rfl
@[simp] theorem State.updPlace_posted (s : State) (p : Nat) (f : Placement → Placement) : (s.updPlace p f).posted = s.posted := by
  simp only [State.updPlace]; split <;> rfl
@[simp] theorem State.updPlace_retries (s : State) (p : Nat) (f : Placement → Placement) : (s.updPlace p f).retries = s.retries := by
  simp only [State.updPlace]; split <;> rfl
@[simp] theorem State.updPlace_walks (s : State) (p : Nat) (f : Placement → Placement) : (s.updPlace p f).walks = s.walks := by
  simp only [State.updPlace]; split <;> rfl
@[simp] theorem State.updPlace_invals (s : State) (p : Nat) (f : Placement → Placement) : (s.updPlace p f).invals = s.invals := by
  simp only [State.updPlace]; split <;> rfl
@[simp] theorem State.updPlace_nextInval (s : State) (p : Nat) (f : Placement → Placement) : (s.updPlace p f).nextInval = s.nextInval := by
  simp only [State.updPlace]; split <;> rfl
@[simp] theorem State.updPlace_queues (s : State) (p : Nat) (f : Placement → Placement) : (s.updPlace p f).queues = s.queues := by
  simp only [State.updPlace]; split <;> rfl
@[simp] theorem State.updPlace_reeveRr (s : State) (p : Nat) (f : Placement → Placement) : (s.updPlace p f).reeveRr = s.reeveRr := by
  simp only [State.updPlace]; split <;> rfl
@[simp] theorem State.updPlace_reeveCyc (s : State) (p : Nat) (f : Placement → Placement) : (s.updPlace p f).reeveCyc = s.reeveCyc := by
  simp only [State.updPlace]; split <;> rfl
@[simp] theorem State.updPlace_notices (s : State) (p : Nat) (f : Placement → Placement) : (s.updPlace p f).notices = s.notices := by
  simp only [State.updPlace]; split <;> rfl
@[simp] theorem State.updPlace_evictions (s : State) (p : Nat) (f : Placement → Placement) : (s.updPlace p f).evictions = s.evictions := by
  simp only [State.updPlace]; split <;> rfl
@[simp] theorem State.updPlace_restored (s : State) (p : Nat) (f : Placement → Placement) : (s.updPlace p f).restored = s.restored := by
  simp only [State.updPlace]; split <;> rfl
@[simp] theorem State.updPlace_rings (s : State) (p : Nat) (f : Placement → Placement) : (s.updPlace p f).rings = s.rings := by
  simp only [State.updPlace]; split <;> rfl
@[simp] theorem State.updPlace_eth (s : State) (p : Nat) (f : Placement → Placement) : (s.updPlace p f).eth = s.eth := by
  simp only [State.updPlace]; split <;> rfl
@[simp] theorem State.updPlace_kports (s : State) (p : Nat) (f : Placement → Placement) : (s.updPlace p f).kports = s.kports := by
  simp only [State.updPlace]; split <;> rfl
@[simp] theorem State.updPlace_links (s : State) (p : Nat) (f : Placement → Placement) : (s.updPlace p f).links = s.links := by
  simp only [State.updPlace]; split <;> rfl
@[simp] theorem State.updPlace_remotes (s : State) (p : Nat) (f : Placement → Placement) : (s.updPlace p f).remotes = s.remotes := by
  simp only [State.updPlace]; split <;> rfl
@[simp] theorem State.updPlace_nextRid (s : State) (p : Nat) (f : Placement → Placement) : (s.updPlace p f).nextRid = s.nextRid := by
  simp only [State.updPlace]; split <;> rfl
@[simp] theorem State.updPlace_guest (s : State) (p : Nat) (f : Placement → Placement) : (s.updPlace p f).guest = s.guest := by
  simp only [State.updPlace]; split <;> rfl
@[simp] theorem State.updPlace_dev (s : State) (p : Nat) (f : Placement → Placement) : (s.updPlace p f).dev = s.dev := by
  simp only [State.updPlace]; split <;> rfl
@[simp] theorem State.updPlace_out (s : State) (p : Nat) (f : Placement → Placement) : (s.updPlace p f).out = s.out := by
  simp only [State.updPlace]; split <;> rfl
@[simp] theorem State.updPlace_nextFault (s : State) (p : Nat) (f : Placement → Placement) : (s.updPlace p f).nextFault = s.nextFault := by
  simp only [State.updPlace]; split <;> rfl
@[simp] theorem State.updPlace_nextCmd (s : State) (p : Nat) (f : Placement → Placement) : (s.updPlace p f).nextCmd = s.nextCmd := by
  simp only [State.updPlace]; split <;> rfl
@[simp] theorem State.updFrame_cur (s : State) (p f : Nat) (g : Frame → Frame) : (s.updFrame p f g).cur = s.cur := by
  simp [State.updFrame]
@[simp] theorem State.updFrame_site (s : State) (p f : Nat) (g : Frame → Frame) : (s.updFrame p f g).site = s.site := by
  simp [State.updFrame]
@[simp] theorem State.updFrame_arg (s : State) (p f : Nat) (g : Frame → Frame) : (s.updFrame p f g).arg = s.arg := by
  simp [State.updFrame]
@[simp] theorem State.updFrame_agenda (s : State) (p f : Nat) (g : Frame → Frame) : (s.updFrame p f g).agenda = s.agenda := by
  simp [State.updFrame]
@[simp] theorem State.updFrame_inputs (s : State) (p f : Nat) (g : Frame → Frame) : (s.updFrame p f g).inputs = s.inputs := by
  simp [State.updFrame]
@[simp] theorem State.updFrame_stalled (s : State) (p f : Nat) (g : Frame → Frame) : (s.updFrame p f g).stalled = s.stalled := by
  simp [State.updFrame]
@[simp] theorem State.updFrame_turn (s : State) (p f : Nat) (g : Frame → Frame) : (s.updFrame p f g).turn = s.turn := by
  simp [State.updFrame]
@[simp] theorem State.updFrame_free (s : State) (p f : Nat) (g : Frame → Frame) : (s.updFrame p f g).free = s.free := by
  simp [State.updFrame]
@[simp] theorem State.updFrame_seqs (s : State) (p f : Nat) (g : Frame → Frame) : (s.updFrame p f g).seqs = s.seqs := by
  simp [State.updFrame]
@[simp] theorem State.updFrame_elems (s : State) (p f : Nat) (g : Frame → Frame) : (s.updFrame p f g).elems = s.elems := by
  simp [State.updFrame]
@[simp] theorem State.updFrame_clusters (s : State) (p f : Nat) (g : Frame → Frame) : (s.updFrame p f g).clusters = s.clusters := by
  simp [State.updFrame]
@[simp] theorem State.updFrame_dieTlb (s : State) (p f : Nat) (g : Frame → Frame) : (s.updFrame p f g).dieTlb = s.dieTlb := by
  simp [State.updFrame]
@[simp] theorem State.updFrame_pa (s : State) (p f : Nat) (g : Frame → Frame) : (s.updFrame p f g).pa = s.pa := by
  simp [State.updFrame]
@[simp] theorem State.updFrame_releases (s : State) (p f : Nat) (g : Frame → Frame) : (s.updFrame p f g).releases = s.releases := by
  simp [State.updFrame]
@[simp] theorem State.updFrame_spills (s : State) (p f : Nat) (g : Frame → Frame) : (s.updFrame p f g).spills = s.spills := by
  simp [State.updFrame]
@[simp] theorem State.updFrame_hbm (s : State) (p f : Nat) (g : Frame → Frame) : (s.updFrame p f g).hbm = s.hbm := by
  simp [State.updFrame]
@[simp] theorem State.updFrame_hbmKey (s : State) (p f : Nat) (g : Frame → Frame) : (s.updFrame p f g).hbmKey = s.hbmKey := by
  simp [State.updFrame]
@[simp] theorem State.updFrame_hbmErr (s : State) (p f : Nat) (g : Frame → Frame) : (s.updFrame p f g).hbmErr = s.hbmErr := by
  simp [State.updFrame]
@[simp] theorem State.updFrame_hostMem (s : State) (p f : Nat) (g : Frame → Frame) : (s.updFrame p f g).hostMem = s.hostMem := by
  simp [State.updFrame]
@[simp] theorem State.updFrame_guestMem (s : State) (p f : Nat) (g : Frame → Frame) : (s.updFrame p f g).guestMem = s.guestMem := by
  simp [State.updFrame]
@[simp] theorem State.updFrame_posted (s : State) (p f : Nat) (g : Frame → Frame) : (s.updFrame p f g).posted = s.posted := by
  simp [State.updFrame]
@[simp] theorem State.updFrame_retries (s : State) (p f : Nat) (g : Frame → Frame) : (s.updFrame p f g).retries = s.retries := by
  simp [State.updFrame]
@[simp] theorem State.updFrame_walks (s : State) (p f : Nat) (g : Frame → Frame) : (s.updFrame p f g).walks = s.walks := by
  simp [State.updFrame]
@[simp] theorem State.updFrame_invals (s : State) (p f : Nat) (g : Frame → Frame) : (s.updFrame p f g).invals = s.invals := by
  simp [State.updFrame]
@[simp] theorem State.updFrame_nextInval (s : State) (p f : Nat) (g : Frame → Frame) : (s.updFrame p f g).nextInval = s.nextInval := by
  simp [State.updFrame]
@[simp] theorem State.updFrame_queues (s : State) (p f : Nat) (g : Frame → Frame) : (s.updFrame p f g).queues = s.queues := by
  simp [State.updFrame]
@[simp] theorem State.updFrame_reeveRr (s : State) (p f : Nat) (g : Frame → Frame) : (s.updFrame p f g).reeveRr = s.reeveRr := by
  simp [State.updFrame]
@[simp] theorem State.updFrame_reeveCyc (s : State) (p f : Nat) (g : Frame → Frame) : (s.updFrame p f g).reeveCyc = s.reeveCyc := by
  simp [State.updFrame]
@[simp] theorem State.updFrame_notices (s : State) (p f : Nat) (g : Frame → Frame) : (s.updFrame p f g).notices = s.notices := by
  simp [State.updFrame]
@[simp] theorem State.updFrame_evictions (s : State) (p f : Nat) (g : Frame → Frame) : (s.updFrame p f g).evictions = s.evictions := by
  simp [State.updFrame]
@[simp] theorem State.updFrame_restored (s : State) (p f : Nat) (g : Frame → Frame) : (s.updFrame p f g).restored = s.restored := by
  simp [State.updFrame]
@[simp] theorem State.updFrame_rings (s : State) (p f : Nat) (g : Frame → Frame) : (s.updFrame p f g).rings = s.rings := by
  simp [State.updFrame]
@[simp] theorem State.updFrame_eth (s : State) (p f : Nat) (g : Frame → Frame) : (s.updFrame p f g).eth = s.eth := by
  simp [State.updFrame]
@[simp] theorem State.updFrame_kports (s : State) (p f : Nat) (g : Frame → Frame) : (s.updFrame p f g).kports = s.kports := by
  simp [State.updFrame]
@[simp] theorem State.updFrame_links (s : State) (p f : Nat) (g : Frame → Frame) : (s.updFrame p f g).links = s.links := by
  simp [State.updFrame]
@[simp] theorem State.updFrame_remotes (s : State) (p f : Nat) (g : Frame → Frame) : (s.updFrame p f g).remotes = s.remotes := by
  simp [State.updFrame]
@[simp] theorem State.updFrame_nextRid (s : State) (p f : Nat) (g : Frame → Frame) : (s.updFrame p f g).nextRid = s.nextRid := by
  simp [State.updFrame]
@[simp] theorem State.updFrame_guest (s : State) (p f : Nat) (g : Frame → Frame) : (s.updFrame p f g).guest = s.guest := by
  simp [State.updFrame]
@[simp] theorem State.updFrame_dev (s : State) (p f : Nat) (g : Frame → Frame) : (s.updFrame p f g).dev = s.dev := by
  simp [State.updFrame]
@[simp] theorem State.updFrame_out (s : State) (p f : Nat) (g : Frame → Frame) : (s.updFrame p f g).out = s.out := by
  simp [State.updFrame]
@[simp] theorem State.updFrame_nextFault (s : State) (p f : Nat) (g : Frame → Frame) : (s.updFrame p f g).nextFault = s.nextFault := by
  simp [State.updFrame]
@[simp] theorem State.updFrame_nextCmd (s : State) (p f : Nat) (g : Frame → Frame) : (s.updFrame p f g).nextCmd = s.nextCmd := by
  simp [State.updFrame]

/-! Reads after updates -/

@[simp] theorem State.seqOf_setSeq_same (s : State) (c : Nat) (q : Seq) : (s.setSeq c q).seqOf c = q := by
  simp [State.seqOf, State.setSeq]

theorem State.seqOf_setSeq (s : State) (c k : Nat) (q : Seq) : (s.setSeq c q).seqOf k = if k = c then q else s.seqOf k := by
  simp [State.seqOf, State.setSeq, Tab.getD_set]

@[simp] theorem State.me_setMe (s : State) (q : Seq) : (s.setMe q).me = q := by simp [State.me, State.setMe]

theorem State.seqOf_setMe (s : State) (k : Nat) (q : Seq) : (s.setMe q).seqOf k = if k = s.cur then q else s.seqOf k := by
  simp [State.setMe, State.seqOf_setSeq]

@[simp] theorem State.setMe_setMe (s : State) (q r : Seq) : (s.setMe q).setMe r = s.setMe r := by
  simp [State.setMe, State.setSeq]

@[simp] theorem State.elemOf_setElem_same (s : State) (e : Nat) (v : Elem) : (s.setElem e v).elemOf e = v := by
  simp [State.elemOf, State.setElem]

theorem State.elemOf_setElem (s : State) (e k : Nat) (v : Elem) : (s.setElem e v).elemOf k = if k = e then v else s.elemOf k := by
  simp [State.elemOf, State.setElem, Tab.getD_set]

theorem State.ctxOf_setCtx (s : State) (e x i y : Nat) (c : Ctx) :
    (s.setCtx e x c).ctxOf i y = if i = e ∧ y = x ∧ x < 4 then c else s.ctxOf i y := by
  simp only [State.ctxOf, State.setCtx, State.elemOf_setElem]
  by_cases h : i = e
  · subst h; simp [vget_vset]
  · simp [h]

theorem State.clusterOf_updCluster (s : State) (c k : Nat) (f : Cluster → Cluster) :
    (s.updCluster c f).clusterOf k = if k = c then f (s.clusterOf c) else s.clusterOf k := by
  simp [State.clusterOf, State.updCluster, Tab.getD_set]

theorem State.queueOf_updQueue (s : State) (q k : Nat) (f : Queue → Queue) :
    (s.updQueue q f).queueOf k = if k = q then f (s.queueOf q) else s.queueOf k := by
  simp [State.queueOf, State.updQueue, Tab.getD_set]

theorem State.placeOf_updPlace (s : State) (p k : Nat) (f : Placement → Placement) :
    (s.updPlace p f).placeOf k = if k = p then (s.placeOf p).map f else s.placeOf k := by
  simp only [State.updPlace]
  split
  · rename_i pl h
    by_cases hk : k = p
    · subst hk; simp [State.placeOf, h] ; simpa [State.placeOf] using congrArg (Option.map f) h.symm
    · simp [State.placeOf, Tab.get?_set_other _ _ _ _ hk, hk]
  · rename_i h
    by_cases hk : k = p
    · subst hk; simp [h]
    · simp [hk]

/-! Registers -/

/-- A read of a register after a write of one; a write to g0 is discarded. -/
theorem Seq.reg_setReg (q : Seq) (d r : BitVec 5) (v : Word) : (q.setReg d v).reg r = if r = d ∧ r ≠ 0 then v else q.reg r := by
  simp only [Seq.reg, Seq.setReg]
  by_cases hr : r = 0
  · simp [hr]
  · by_cases hd : d = 0
    · have : r ≠ d := fun h => hr (h.trans hd)
      simp [hr, hd]
    · have hlt : d.toNat < 32 := d.isLt
      simp only [hr, hd, if_false, vget_vset, hlt, and_true, BitVec.toNat_inj, ne_eq, not_false_eq_true]

end Sys2Proof.Machine
end

