-- ==== Sys2Proof/Laws/Element.lean ====
section
/-! SUPPORT. What the start of a firing does, once for every operator of the element. -/

namespace Sys2Proof.Machine

/-- R68: touching a frame changes one cluster's activity and the frame's own state, nothing else. -/
theorem touch_frame (s : State) (c p f : Nat) (g : BitVec 2) :
    { touch s c p f g with clusters := s.clusters, places := s.places } = s ∧
      (∀ k, { (touch s c p f g).clusterOf k with act := (s.clusterOf k).act } = s.clusterOf k) ∧ (touch s c p f g).elems = s.elems := by
  have h1 : ∀ u : State, { u with clusters := s.clusters, places := s.places } = s →
      (∀ k, { u.clusterOf k with act := (s.clusterOf k).act } = s.clusterOf k) → u.elems = s.elems →
      ∀ (q : Nat) (h : Frame → Frame), { u.updFrame p q h with clusters := s.clusters, places := s.places } = s ∧
        (∀ k, { (u.updFrame p q h).clusterOf k with act := (s.clusterOf k).act } = s.clusterOf k) ∧ (u.updFrame p q h).elems = s.elems := by
    intro u hu hc he q h
    refine ⟨?_, ?_, ?_⟩
    · rw [← hu]; simp only [State.updFrame, State.updPlace]; split <;> rfl
    · intro k; rw [← hc k]; simp [State.clusterOf]
    · simp [he]
  have h2 : ∀ u : State, (u = s ∨ ∃ key, u = s.updCluster c (fun k => { k with act := key :: k.act })) →
      { u with clusters := s.clusters, places := s.places } = s ∧
      (∀ k, { u.clusterOf k with act := (s.clusterOf k).act } = s.clusterOf k) ∧ u.elems = s.elems := by
    rintro u (rfl | ⟨key, rfl⟩)
    · exact ⟨rfl, fun _ => rfl, rfl⟩
    · refine ⟨rfl, fun k => ?_, rfl⟩
      rw [State.clusterOf_updCluster]; split
      · subst_vars; rfl
      · rfl
  simp only [touch]
  generalize hu : (if (s.clusterOf c).act.contains (p, f, g.toNat) = true then s else
    s.updCluster c (fun k => { k with act := (p, f, g.toNat) :: k.act })) = u
  have hu' : u = s ∨ ∃ key, u = s.updCluster c (fun k => { k with act := key :: k.act }) := by
    rw [← hu]
    split
    · exact .inl rfl
    · exact .inr ⟨_, rfl⟩
  obtain ⟨ha, hb, hc⟩ := h2 u hu'
  split
  · exact h1 u ha hb hc _ _
  · exact ⟨ha, hb, hc⟩

theorem State.setCtx_setElem_ctx (s : State) (e x : Nat) (v : Elem) (c : Ctx) (hx : x < 4) :
    ((s.setElem e v).setCtx e x c).ctxOf e x = c := by
  rw [State.ctxOf_setCtx, if_pos ⟨rfl, rfl, hx⟩]

/-- R447: counting the words a firing reads changes the device's counters alone. -/
theorem countBadReads_dev (s : State) (F : Fire) :
    ∃ d, countBadReads s F = { s with dev := d } ∧ countBadReads { s with site := none } F = { s with site := none, dev := d } := by
  simp only [countBadReads]
  split
  · exact ⟨s.dev, rfl, rfl⟩
  · exact ⟨_, rfl, rfl⟩

/-- What a firing leaves when it starts. -/
theorem startFiring_started (s : State) (t : Site) (out : FireOut) (sp : Span) (hx : t.x < 4) :
    Started s (startFiring (countBadReads { s with site := none } (fireOf s t)) t (fireOf s t) out sp) t out sp.len sp.hold := by
  obtain ⟨dv, hd, hd'⟩ := countBadReads_dev s (fireOf s t)
  rw [hd']
  have hcx : ({ s with site := none, dev := dv } : State).ctxOf = s.ctxOf := rfl
  have hel : ({ s with site := none, dev := dv } : State).elemOf = s.elemOf := rfl
  simp only [startFiring, hcx, hel]
  generalize hc1 : ({ s.ctxOf t.e t.x with ms := _, inflight := _, order := _, budget := _, stepped := _ } : Ctx) = c1
  generalize he1 : ({ s.elemOf t.e with cyc := _, rr := _, busy := _ } : Elem) = el1
  generalize hu : (({ s with site := none, dev := dv } : State).setElem t.e el1).setCtx t.e t.x c1 = u
  obtain ⟨ht, hk, he⟩ := touch_frame u (clusterOfElem t.e) (s.ctxOf t.e t.x).plid (fireOf s t).tag.frame.toNat (fireOf s t).tag.gen
  have hctx : ∀ e x, (touch u (clusterOfElem t.e) (s.ctxOf t.e t.x).plid (fireOf s t).tag.frame.toNat (fireOf s t).tag.gen).ctxOf e x = u.ctxOf e x := by
    intro e x
    generalize touch u (clusterOfElem t.e) (s.ctxOf t.e t.x).plid (fireOf s t).tag.frame.toNat (fireOf s t).tag.gen = w at he
    simp only [State.ctxOf, State.elemOf, he]
  have helem : ∀ e, (touch u (clusterOfElem t.e) (s.ctxOf t.e t.x).plid (fireOf s t).tag.frame.toNat (fireOf s t).tag.gen).elemOf e = u.elemOf e := by
    intro e
    generalize touch u (clusterOfElem t.e) (s.ctxOf t.e t.x).plid (fireOf s t).tag.frame.toNat (fireOf s t).tag.gen = w at he
    simp only [State.elemOf, he]
  have huc : u.ctxOf t.e t.x = c1 := by rw [← hu]; exact State.setCtx_setElem_ctx _ _ _ _ _ hx
  have hue : u.elemOf t.e = { el1 with ctx := vset el1.ctx t.x c1 } := by
    rw [← hu]; simp only [State.setCtx, State.elemOf_setElem_same]
  let fl : Firing := {
    k := t.k, opc := wOPC (fireOf s t).w, ends := (s.elemOf t.e).cyc + sp.len, opA := (fireOf s t).a, opB := (fireOf s t).b,
    used := t.a.toList ++ t.b.toList ++ t.scales, out := out, tag := (fireOf s t).tag, cancel := false,
    win := Tab.getD (s.ctxOf t.e t.x).wins (fireOf s t).tag.frame.toNat 0, spare := spareSlots (s.elemOf t.e) t.x (s.ctxOf t.e t.x) (fireOf s t) out }
  refine ⟨⟨fl, rfl, rfl, rfl, rfl, rfl, rfl, rfl, rfl, rfl, ?_⟩, ?_, ?_, ?_, ?_, ?_, ?_, ?_, ?_⟩
  · rw [hctx, huc, ← hc1]
  · intro x hne
    rw [hctx]
    simp only [State.ctxOf, hue, vget_vset]
    rw [if_neg (fun h => hne h.1), ← he1]
  · rw [helem, hue, ← he1]
  · rw [helem, hue, ← he1]
  · rw [helem, hue, ← he1]
  · intro n
    rw [helem, hue, ← he1]
    simp only [vget_vset]
    have : (unitOf (wOPC (fireOf s t).w)).index < 8 := by cases unitOf (wOPC (fireOf s t).w) <;> decide
    simp only [this, and_true]
  · intro e hne
    rw [helem, ← hu]
    simp only [State.setCtx]
    rw [State.elemOf_setElem, if_neg hne, State.elemOf_setElem, if_neg hne]
    rfl
  · intro k
    rw [show s.clusterOf k = u.clusterOf k by rw [← hu]; rfl]
    exact hk k
  · have := ht
    generalize touch u (clusterOfElem t.e) (s.ctxOf t.e t.x).plid (fireOf s t).tag.frame.toNat (fireOf s t).tag.gen = w at this ⊢
    subst hu
    have h3 := congrArg (fun z : State => { z with elems := s.elems, clusters := s.clusters, places := s.places, site := s.site }) this
    rw [hd]
    exact h3

/-- An operator whose word stands at the firing site starts its firing. -/
theorem fire_firesAs (s : State) (t : Site) (i : Instr) (sp : Fire → Span) (f : Fire → FireOut) (h : FiresAt s i t) :
    Started s (fire s i sp f) t ((fireOf s t).result f) (sp (fireOf s t)).len (sp (fireOf s t)).hold := by
  obtain ⟨h1, h2, h3⟩ := h
  have hw : (some (fireOf s t).w == encode i) = true := by rw [h3]; simp [fireOf]
  simp only [fire, h1, hw, if_true]
  exact startFiring_started s t _ _ h2

/-- R336: without a POISON operand a firing does what its operator does. -/
theorem Fire.result_sound (F : Fire) (f : Fire → FireOut) (h : F.poisonPayload = none) : F.result f = f F := by
  simp only [Fire.result, h]

end Sys2Proof.Machine
end

