-- ==== Sys2Proof/Laws/Sequencer.lean ====
section
/-! SUPPORT. What the shared operations of the sequencer's instructions do: the end of an instruction, a result, a trap. -/

namespace Sys2Proof.Machine

/-- A table without change stays the state it was. -/
@[simp] theorem State.setSeqs_eta (s : State) (c : Nat) (q : Seq) : { s.setSeq c q with seqs := s.seqs } = s := rfl

/-- Replacing the executing sequencer changes nothing else. -/
theorem onlyMe_setMe (s : State) (q : Seq) : OnlyMe s (s.setMe q) q :=
  ⟨by simp [State.setMe], fun k hk => by simp [State.seqOf_setMe, hk], rfl⟩

/-- Replacing the sequencer of a cluster changes nothing else. -/
theorem onlySeq_setSeq (s : State) (c : Nat) (q : Seq) : OnlySeq s (s.setSeq c q) c q :=
  ⟨by simp, fun k hk => by simp [State.seqOf_setSeq, hk], rfl⟩

/-- Where no stop was asked for, an instruction ends with the sequencer gone on. -/
theorem Seq.finish_eq (q : Seq) (pc' : Word) (cost : Nat) (h : q.stopReq = false) : q.finish pc' cost = q.went pc' cost := by
  cases q; simp_all [Seq.finish, Seq.boundary, Seq.went]

@[simp] theorem Seq.setReg_stopReq (q : Seq) (d : BitVec 5) (v : Word) : (q.setReg d v).stopReq = q.stopReq := by
  simp only [Seq.setReg]; split <;> rfl

theorem Seq.setReg_eq (q : Seq) (d : BitVec 5) (v : Word) : q.setReg d v = { q with g := (q.setReg d v).g } := by
  simp only [Seq.setReg]; split <;> rfl

/-- A sequencer that went on from a write of a register. -/
theorem Seq.setReg_went (q : Seq) (d : BitVec 5) (v pc' : Word) (cost : Nat) :
    (q.setReg d v).went pc' cost = { q.went pc' cost with g := (q.setReg d v).g } := by
  rw [Seq.setReg_eq]; rfl

/-- The write of a register that ends an instruction. -/
theorem wrote_setReg (s : State) (d : BitVec 5) (v pc' : Word) (cost : Nat) (h : s.me.stopReq = false) :
    Wrote s (s.setMe ((s.me.setReg d v).finish pc' cost)) d v pc' cost := by
  have hf : (s.me.setReg d v).finish pc' cost = { s.me.went pc' cost with g := (s.me.setReg d v).g } := by
    rw [Seq.finish_eq _ _ _ (by simp [h]), Seq.setReg_went]
  rw [hf]
  refine ⟨fun r => ?_, ?_⟩
  · have := Seq.reg_setReg s.me d r v
    simpa [State.reg, Seq.reg] using this
  · simpa using onlyMe_setMe s { s.me.went pc' cost with g := (s.me.setReg d v).g }

/-- A result: g[d] is written and the next word comes next. -/
theorem wrote_result (s : State) (d : BitVec 5) (v : Word) (cost : Nat) (h : s.me.stopReq = false) :
    Wrote s (s.result d v cost) d v (s.me.pc + 4) cost := wrote_setReg s d v _ cost h

/-- An instruction without a result goes on. -/
theorem wentOn_finish (s : State) (pc' : Word) (cost : Nat) (h : s.me.stopReq = false) :
    WentOn s (s.setMe (s.me.finish pc' cost)) pc' cost := by
  rw [Seq.finish_eq _ _ _ h]; exact onlyMe_setMe s _

theorem wentOn_advance (s : State) (cost : Nat) (h : s.me.stopReq = false) : WentOn s (s.advance cost) (s.me.pc + 4) cost :=
  wentOn_finish s _ cost h

/-- A trap changes nothing but the trapping sequencer. -/
theorem trapped_trap (s : State) (code sub : Nat) (val : Word) : Trapped s (s.trap code sub val) code sub val :=
  onlyMe_setMe s _

/-- The pieces that an access is split into read the bytes of the whole. -/
theorem splitLines_memRead (m : Memory) (fuel va n : Nat) (h : n < fuel) :
    (splitLines fuel va n).flatMap (fun p => memRead m p.1 p.2) = memRead m va n := by
  induction fuel generalizing va n with
  | zero => omega
  | succ f ih =>
    rw [splitLines]
    by_cases hn : n = 0
    · simp [hn, memRead]
    · rw [if_neg hn]
      have hk : 0 < min n (128 - va % 128) := by omega
      simp only [List.flatMap_cons]
      rw [ih _ _ (by omega)]
      generalize hk' : min n (128 - va % 128) = k at *
      obtain ⟨j, rfl⟩ : ∃ j, n = k + j := ⟨n - k, by omega⟩
      simp only [memRead, Nat.add_sub_cancel_left, List.range_add, List.map_append, List.map_map]
      congr 1
      apply List.map_congr_left
      intro i _
      simp [Nat.add_assoc]

end Sys2Proof.Machine
end

