-- ==== Sys2Proof/Tests/Slice0.lean ====
section
/-! SUPPORT. The model's own tests: decoding, well-formedness, single instructions on small states, and a state that meets the hypotheses of each statement. -/

namespace Sys2Proof.Tests

open Sys2Proof Sys2Proof.Machine

set_option Elab.async false

/-! Decoding (R29, R30, R103, R113) -/

/-- R29, R30: words of the sequencer built from the bits of the encoding table (major opcodes below 0x08). -/
theorem test_decode_seqInt : ([
    (0x0266E800#32, .add 0x13 0x6 0x1D), (0x0266E801#32, .sub 0x13 0x6 0x1D), (0x0266E802#32, .and 0x13 0x6 0x1D), (0x0266E803#32, .or 0x13 0x6 0x1D),
    (0x0266E804#32, .xor 0x13 0x6 0x1D), (0x0266E805#32, .andn 0x13 0x6 0x1D), (0x0266E806#32, .shl 0x13 0x6 0x1D), (0x0266E807#32, .shr 0x13 0x6 0x1D),
    (0x0266E808#32, .sar 0x13 0x6 0x1D), (0x0266E809#32, .rot 0x13 0x6 0x1D), (0x0666E800#32, .mul 0x13 0x6 0x1D), (0x0666E801#32, .mulh 0x13 0x6 0x1D),
    (0x0666E802#32, .mulhu 0x13 0x6 0x1D), (0x0666E803#32, .div 0x13 0x6 0x1D), (0x0666E804#32, .divu 0x13 0x6 0x1D), (0x0666E805#32, .rem 0x13 0x6 0x1D),
    (0x0666E806#32, .remu 0x13 0x6 0x1D), (0x0A66E800#32, .slt 0x13 0x6 0x1D), (0x0A66E801#32, .sltu 0x13 0x6 0x1D), (0x0A66E802#32, .seq 0x13 0x6 0x1D),
    (0x0A66E803#32, .min 0x13 0x6 0x1D), (0x0A66E804#32, .max 0x13 0x6 0x1D), (0x0A66E805#32, .minu 0x13 0x6 0x1D), (0x0A66E806#32, .maxu 0x13 0x6 0x1D),
    (0x0E660000#32, .clz 0x13 0x6), (0x0E660001#32, .ctz 0x13 0x6), (0x0E660002#32, .popc 0x13 0x6), (0x1266A5C3#32, .addi 0x13 0x6 0xA5C3),
    (0x1666A5C3#32, .andi 0x13 0x6 0xA5C3), (0x1A66A5C3#32, .ori 0x13 0x6 0xA5C3), (0x1E66A5C3#32, .xori 0x13 0x6 0xA5C3)] : List (BitVec 32 × Instr)).all (fun p => decodeSeq p.1 == some p.2 && encodeSeq p.2 == some p.1) = true := by decide +kernel

/-- R29, R30: words of the sequencer built from the bits of the encoding table (immediates and bit fields). -/
theorem test_decode_seqImm : ([
    (0x2266002B#32, .shli 0x13 0x6 0x2B), (0x2666002B#32, .shri 0x13 0x6 0x2B), (0x2A66002B#32, .sari 0x13 0x6 0x2B), (0x2E66A5C3#32, .slti 0x13 0x6 0xA5C3),
    (0x3266A5C3#32, .sltiu 0x13 0x6 0xA5C3), (0x3666A5C3#32, .ldhi 0x13 0x6 0xA5C3), (0x3A661D2E#32, .bfx 0x13 0x6 0x1D 0x2E), (0x3E661D2E#32, .bfxs 0x13 0x6 0x1D 0x2E)] : List (BitVec 32 × Instr)).all (fun p => decodeSeq p.1 == some p.2 && encodeSeq p.2 == some p.1) = true := by decide +kernel

/-- R29, R30: words of the sequencer built from the bits of the encoding table (loads, stores and atomics). -/
theorem test_decode_seqMem : ([
    (0x42661D2E#32, .bfi 0x13 0x6 0x1D 0x2E), (0x4666A5C3#32, .lb 0x13 0x6 0xA5C3), (0x4A66A5C3#32, .lbu 0x13 0x6 0xA5C3), (0x4E66A5C3#32, .lh 0x13 0x6 0xA5C3),
    (0x5266A5C3#32, .lhu 0x13 0x6 0xA5C3), (0x5666A5C3#32, .lw 0x13 0x6 0xA5C3), (0x5A66A5C3#32, .lwu 0x13 0x6 0xA5C3), (0x5E66A5C3#32, .ld 0x13 0x6 0xA5C3),
    (0x6326A5C3#32, .sb 0x19 0x6 0xA5C3), (0x6726A5C3#32, .sh 0x19 0x6 0xA5C3), (0x6B26A5C3#32, .sw 0x19 0x6 0xA5C3), (0x6F26A5C3#32, .sd 0x19 0x6 0xA5C3)] : List (BitVec 32 × Instr)).all (fun p => decodeSeq p.1 == some p.2 && encodeSeq p.2 == some p.1) = true := by decide +kernel

/-- R29, R30: words of the sequencer built from the bits of the encoding table (control flow, control registers and the system group). -/
theorem test_decode_seqFlow : ([
    (0x70DDA5C3#32, .beq 0x6 0x1D 0xA5C3), (0x74DDA5C3#32, .bne 0x6 0x1D 0xA5C3), (0x78DDA5C3#32, .blt 0x6 0x1D 0xA5C3), (0x7CDDA5C3#32, .bge 0x6 0x1D 0xA5C3),
    (0x80DDA5C3#32, .bltu 0x6 0x1D 0xA5C3), (0x84DDA5C3#32, .bgeu 0x6 0x1D 0xA5C3), (0x8AABCDEF#32, .j 0x2ABCDEF), (0x8EABCDEF#32, .jal 0x2ABCDEF),
    (0x9266A5C3#32, .jalr 0x13 0x6 0xA5C3), (0x96600123#32, .crrd 0x13 0x123), (0x94061123#32, .crwr 0x6 0x123), (0x96662123#32, .crset 0x13 0x6 0x123),
    (0x96663123#32, .crclr 0x13 0x6 0x123), (0x9A66E800#32, .amoswap 0x13 0x6 0x1D), (0x9A66EAC1#32, .amocas 0x13 0x6 0x1D 0xB), (0x9A66E802#32, .amoadd 0x13 0x6 0x1D),
    (0x9A66E803#32, .amoand 0x13 0x6 0x1D), (0x9A66E804#32, .amoor 0x13 0x6 0x1D), (0x9A66E805#32, .amoxor 0x13 0x6 0x1D), (0x9A66E806#32, .amomin 0x13 0x6 0x1D),
    (0x9A66E807#32, .amomax 0x13 0x6 0x1D), (0x9C000000#32, .nop), (0x9C000001#32, .fence), (0x9C000002#32, .tret),
    (0x9C000003#32, .wfe), (0x9C060004#32, .sev 0x6), (0x9C000005#32, .halt), (0xA000A5C3#32, .syscall 0xA5C3),
    (0xA400A5C3#32, .brk 0xA5C3)] : List (BitVec 32 × Instr)).all (fun p => decodeSeq p.1 == some p.2 && encodeSeq p.2 == some p.1) = true := by decide +kernel

/-- R29, R30: words of the sequencer built from the bits of the encoding table (major opcodes 0x30 to 0x34). -/
theorem test_decode_seqClassP : ([
    (0xC266E800#32, .gload 0x13 0x6 0x1D), (0xC2660001#32, .gevict 0x13 0x6), (0xC266EAC2#32, .falloc 0x13 0x6 0x1D 0xB), (0xC2660003#32, .ffree 0x13 0x6),
    (0xC2660004#32, .fkill 0x13 0x6), (0xC266EAC5#32, .tinj 0x13 0x6 0x1D 0xB), (0xC266E806#32, .census 0x13 0x6 0x1D), (0xC406E800#32, .tlbiPage 0x6 0x1D),
    (0xC400E801#32, .tlbiAsid 0x1D), (0xC4000002#32, .tlbiAll), (0xCA66E800#32, .cprio 0x13 0x6 0x1D), (0xCA66EAC1#32, .csave 0x13 0x6 0x1D 0xB),
    (0xCA66EAC2#32, .crstr 0x13 0x6 0x1D 0xB), (0xCA66EAC3#32, .fres 0x13 0x6 0x1D 0xB), (0xCA660004#32, .fdisc 0x13 0x6), (0xCA660005#32, .fretry 0x13 0x6),
    (0xCE66E800#32, .wmark 0x13 0x6 0x1D), (0xCE66E801#32, .wretire 0x13 0x6 0x1D), (0xCE66E802#32, .rwin 0x13 0x6 0x1D), (0xCE66E803#32, .rstep 0x13 0x6 0x1D),
    (0xCE66E804#32, .fstep 0x13 0x6 0x1D), (0xCE66EAC5#32, .wcfg 0x13 0x6 0x1D 0xB), (0xD2660000#32, .snap 0x13 0x6)] : List (BitVec 32 × Instr)).all (fun p => decodeSeq p.1 == some p.2 && encodeSeq p.2 == some p.1) = true := by decide +kernel

/-- R103 to R107, R113: words of the element built from the bits of the encoding table (graph operators). -/
theorem test_decode_elemGraph : ([
    (0x003CD529#32, .steer 3 12 13 5 2 9), (0x013CD529#32, .merge 3 12 13 5 2 9), (0x023CD529#32, .lcarry 3 12 13 5 2 9), (0x033CD529#32, .lexit 3 12 13 5 2 9),
    (0x043CDF09#32, .count 3 12 13 9), (0x053CDF09#32, .count2 3 12 13 9), (0x063FD529#32, .bound 3 13 5 2 9), (0x073FD529#32, .endq 3 13 5 2 9),
    (0x083CD529#32, .gate 3 12 13 5 2 9), (0x093CD529#32, .join 3 12 13 5 2 9), (0x0A3FD529#32, .copy 3 13 5 2 9), (0x0B3FFF29#32, .sink 3 2 9),
    (0x0C3FD529#32, .const 3 13 5 2 9), (0x0D3CD529#32, .spect 3 12 13 5 2 9), (0x0E3CD509#32, .commit 3 12 13 5 9), (0x0F3FD509#32, .kill 3 13 5 9),
    (0x103CD509#32, .fnew 3 12 13 5 9), (0x113CDF09#32, .fret 3 12 13 9), (0x123FD529#32, .colalloc 3 13 5 2 9), (0x133FD529#32, .colret 3 13 5 2 9),
    (0x143CD529#32, .pack 3 12 13 5 2 9), (0x153FD529#32, .unpack 3 13 5 2 9)] : List (BitVec 32 × Instr)).all (fun p => readElem p.1 == some p.2 && encode p.2 == some p.1) = true := by decide +kernel

/-- R103 to R107, R113: words of the element built from the bits of the encoding table (scalar operators). -/
theorem test_decode_elemScalar : ([
    (0x203CD529#32, .iadd 3 12 13 5 2 9), (0x213CD529#32, .isub 3 12 13 5 2 9), (0x223CD529#32, .imul 3 12 13 5 2 9), (0x233CD529#32, .imulh 3 12 13 5 2 9),
    (0x243CD529#32, .idiv 3 12 13 5 2 9), (0x253CD529#32, .irem 3 12 13 5 2 9), (0x263CD529#32, .elAnd 3 12 13 5 2 9), (0x273CD529#32, .elOr 3 12 13 5 2 9),
    (0x283CD529#32, .elXor 3 12 13 5 2 9), (0x293CD529#32, .elAndn 3 12 13 5 2 9), (0x2A3CD529#32, .elShl 3 12 13 5 2 9), (0x2B3CD529#32, .elShr 3 12 13 5 2 9),
    (0x2C3CD529#32, .elSar 3 12 13 5 2 9), (0x2D3CD529#32, .elRot 3 12 13 5 2 9), (0x2E3CD529#32, .elMin 3 12 13 5 2 9), (0x2F3CD529#32, .elMax 3 12 13 5 2 9),
    (0x303CD529#32, .elMinu 3 12 13 5 2 9), (0x313CD529#32, .elMaxu 3 12 13 5 2 9), (0x323CD529#32, .cmp 3 12 13 5 2 9), (0x333CD529#32, .sel 3 12 13 5 2 9),
    (0x343FD529#32, .elBfx 3 13 5 2 9), (0x353CD529#32, .elBfi 3 12 13 5 2 9), (0x363FD529#32, .elClz 3 13 5 2 9), (0x373FD529#32, .elPopc 3 13 5 2 9),
    (0x383CD529#32, .addsat 3 12 13 5 2 9), (0x393FD529#32, .abs 3 13 5 2 9), (0x403CD509#32, .agen 3 12 13 5 9), (0x413CD529#32, .ainc 3 12 13 5 2 9),
    (0x423CD529#32, .aidx 3 12 13 5 2 9)] : List (BitVec 32 × Instr)).all (fun p => readElem p.1 == some p.2 && encode p.2 == some p.1) = true := by decide +kernel

/-- R103 to R107, R113: words of the element built from the bits of the encoding table (memory operators). -/
theorem test_decode_elemMemory : ([
    (0x433CD529#32, .ldt 3 12 13 5 2 9), (0x443CD529#32, .stt 3 12 13 5 2 9), (0x453CD529#32, .lds 3 12 13 5 2 9), (0x463CD529#32, .sts 3 12 13 5 2 9),
    (0x473CD529#32, .atom 3 12 13 5 2 9), (0x483CD529#32, .atomr 3 12 13 5 2 9), (0x493CD529#32, .casr 3 12 13 5 2 9), (0x4A3CD529#32, .elFence 3 12 13 5 2 9),
    (0x4B3CD529#32, .pref 3 12 13 5 2 9), (0x4C3CD529#32, .wbld 3 12 13 5 2 9), (0x503CDF29#32, .cpy 3 12 13 2 9), (0x513CDF29#32, .cpyw 3 12 13 2 9),
    (0x523CD529#32, .mcst 3 12 13 5 2 9), (0x533CD529#32, .sigop 3 12 13 5 2 9), (0x543CD529#32, .ringpop 3 12 13 5 2 9), (0x553CD529#32, .ringrel 3 12 13 5 2 9),
    (0x563CDF29#32, .gqp 3 12 13 2 9), (0x573FD529#32, .evset 3 13 5 2 9), (0x583FD529#32, .evwait 3 13 5 2 9), (0x593CD529#32, .trap 3 12 13 5 2 9),
    (0x5A3FD529#32, .brkp 3 13 5 2 9)] : List (BitVec 32 × Instr)).all (fun p => readElem p.1 == some p.2 && encode p.2 == some p.1) = true := by decide +kernel

/-- R103 to R107, R113: words of the element built from the bits of the encoding table (vector operators). -/
theorem test_decode_elemVector : ([
    (0x603CD529#32, .vadd 3 12 13 5 2 9), (0x613CD529#32, .vsub 3 12 13 5 2 9), (0x623CD529#32, .vmul 3 12 13 5 2 9), (0x633CD529#32, .vfma 3 12 13 5 2 9),
    (0x643CD529#32, .vmin 3 12 13 5 2 9), (0x653CD529#32, .vmax 3 12 13 5 2 9), (0x663FD529#32, .vabs 3 13 5 2 9), (0x673FD529#32, .vneg 3 13 5 2 9),
    (0x683CD529#32, .viadd 3 12 13 5 2 9), (0x693CD529#32, .visub 3 12 13 5 2 9), (0x6A3CD529#32, .vimul 3 12 13 5 2 9), (0x6B3CD529#32, .vimin 3 12 13 5 2 9),
    (0x6C3CD529#32, .vimax 3 12 13 5 2 9), (0x6D3CD529#32, .vcmp 3 12 13 5 2 9), (0x6E3CD529#32, .vsel 3 12 13 5 2 9), (0x6F3CD529#32, .vand 3 12 13 5 2 9),
    (0x703CD529#32, .vor 3 12 13 5 2 9), (0x713CD529#32, .vxor 3 12 13 5 2 9), (0x723CD529#32, .vshl 3 12 13 5 2 9), (0x733CD529#32, .vshr 3 12 13 5 2 9),
    (0x743CD529#32, .vsar 3 12 13 5 2 9), (0x753FD529#32, .vcvt 3 13 5 2 9), (0x763FD529#32, .vsplit 3 13 5 2 9), (0x773FD529#32, .vexp2 3 13 5 2 9),
    (0x783FD529#32, .vlog2 3 13 5 2 9), (0x793FD529#32, .vrcp 3 13 5 2 9), (0x7A3FD529#32, .vrsq 3 13 5 2 9), (0x7B3FD529#32, .vsqrt 3 13 5 2 9),
    (0x7C3FD529#32, .vsinpi 3 13 5 2 9), (0x7D3FD529#32, .vcospi 3 13 5 2 9), (0x7E3FD529#32, .vtanh 3 13 5 2 9), (0x7F3FD529#32, .vrsum 3 13 5 2 9),
    (0x803FD529#32, .vrmax 3 13 5 2 9), (0x813FD529#32, .vscan 3 13 5 2 9), (0x823FD529#32, .vtrans 3 13 5 2 9), (0x833FD529#32, .vbcast 3 13 5 2 9),
    (0x843CD529#32, .vperm 3 12 13 5 2 9), (0x853CD529#32, .vclamp 3 12 13 5 2 9), (0x863CD529#32, .vextr 3 12 13 5 2 9), (0x873CD529#32, .vins 3 12 13 5 2 9),
    (0x883FD529#32, .vzero 3 13 5 2 9)] : List (BitVec 32 × Instr)).all (fun p => readElem p.1 == some p.2 && encode p.2 == some p.1) = true := by decide +kernel

/-- R103 to R107, R113: words of the element built from the bits of the encoding table (matrix operators). -/
theorem test_decode_elemMatrix : ([
    (0xA03CD529#32, .mma 3 12 13 5 2 9), (0xA13CD529#32, .mmas 3 12 13 5 2 9), (0xA23CD529#32, .mmaw 3 12 13 5 2 9), (0xA33FD529#32, .accz 3 13 5 2 9),
    (0xA43FD529#32, .accrd 3 13 5 2 9), (0xA53FD529#32, .accld 3 13 5 2 9), (0xA63CD529#32, .accadd 3 12 13 5 2 9)] : List (BitVec 32 × Instr)).all (fun p => readElem p.1 == some p.2 && encode p.2 == some p.1) = true := by decide +kernel

/-! Well-formedness: each check refuses an ill-formed term (R105 to R107) -/

/-- R105: an operator that uses operand A with A absent; R115 makes an exception of the vacant word. -/
theorem test_wf_operandsPresent : (Instr.iadd 15 1 0 0 0 0).wf = false ∧ (Instr.iadd 0 15 0 0 0 0).wf = false ∧ (Instr.sink 15 0 0).wf = true := by decide

/-- R107: tag action 12 is reserved. -/
theorem test_wf_tagAssigned : (Instr.iadd 0 1 0 0 12 0).wf = false ∧ (Instr.iadd 0 1 0 0 9 0).wf = true := by decide

/-- R107: LOADI takes its value from operand B, which COPY does not use. -/
theorem test_wf_tagOperand : (Instr.copy 0 0 1 5 0).wf = false ∧ (Instr.steer 0 1 0 1 5 0).wf = true := by decide

/-- R106: two results cannot both go to SELF. -/
theorem test_wf_oneSelf : (Instr.copy 0 14 14 0 0).wf = false ∧ (Instr.copy 0 14 13 0 0).wf = true := by decide

/-- R105: one port cannot be both operands; a constant can. -/
theorem test_wf_portsDiffer : (Instr.iadd 3 3 0 15 0 0).wf = false ∧ (Instr.iadd 3 12 0 15 0 0).wf = true := by decide

/-- R30, R103: reserved encodings are no instruction: an unassigned major opcode, a nonzero reserved field, an unassigned operator, tag action 15. -/
theorem test_decode_reserved : decodeSeq 0xA8000000#32 = none ∧ decodeSeq 0x0C000803#32 = none ∧ readElem 0x16000000#32 = none ∧
    decodeElem 0x200101F0#32 = none := by decide +kernel

/-! The sequencer's instructions, values computed by hand from R36 to R48 -/

/-- A value of the state that an instruction answers. -/
def after {α : Type} (r : Result) (f : State → α) : Option α :=
  match r with
  | .next t => some (f t)
  | _ => none

/-- The machine after reset with the sequencer of cluster 0 changed. -/
def withSeq (f : Seq → Seq) : State := State.reset.setSeq 0 (f (State.reset.seqOf 0))

/-- General registers set. -/
def regs (l : List (Nat × Word)) (q : Seq) : Seq := { q with g := l.foldl (fun g p => vset g p.1 p.2) q.g }

/-- The registers that the tests of results use, and a word at 0x100 of local memory. -/
def small : State :=
  withSeq (fun q => { regs [(1, 0x8000000000000001#64), (2, 0xFFFFFFFFFFFFFFC3#64), (3, 0x1111111111111111#64), (4, 0xFFF), (5, 0x1000),
    (6, 0x8000000000000000#64), (7, 0xFFFFFFFFFFFFFFFF#64), (8, 0x100), (9, 0x1122334455667788#64), (10, 0x40000)] q with
      mem := memWrite [] 0x100 [0x88, 0x77, 0x66, 0x55, 0x44, 0x33, 0x22, 0x11], pc := 0x200, tvec := 0x300 })

/-- R36 to R43, R48: what g3 holds afterwards. -/
theorem test_results : ([
      (.add 3 1 2, 0x7FFFFFFFFFFFFFC4#64), (.sub 3 1 2, 0x800000000000003E#64), (.and 3 1 2, 0x8000000000000001#64), (.or 3 1 2, 0xFFFFFFFFFFFFFFC3#64),
      (.xor 3 1 2, 0x7FFFFFFFFFFFFFC2#64), (.andn 3 1 2, 0x0#64), (.shl 3 1 2, 0x8#64), (.shr 3 1 2, 0x1000000000000000#64),
      (.sar 3 1 2, 0xF000000000000000#64), (.rot 3 1 2, 0xC#64), (.mul 3 1 2, 0x7FFFFFFFFFFFFFC3#64), (.mulh 3 1 2, 0x1E#64),
      (.mulhu 3 1 2, 0x7FFFFFFFFFFFFFE2#64), (.div 3 1 2, 0x2192E29F79B4758#64), (.divu 3 1 2, 0x0#64), (.rem 3 1 2, 0xFFFFFFFFFFFFFFF9#64),
      (.remu 3 1 2, 0x8000000000000001#64), (.slt 3 1 2, 0x1#64), (.sltu 3 1 2, 0x1#64), (.seq 3 1 2, 0x0#64),
      (.min 3 1 2, 0x8000000000000001#64), (.max 3 1 2, 0xFFFFFFFFFFFFFFC3#64), (.minu 3 1 2, 0x8000000000000001#64), (.maxu 3 1 2, 0xFFFFFFFFFFFFFFC3#64),
      (.clz 3 1, 0x0#64), (.ctz 3 1, 0x0#64), (.popc 3 1, 0x2#64), (.clz 3 4, 52),
      (.ctz 3 5, 12), (.clz 3 0, 64), (.ctz 3 0, 64), (.addi 3 1 0xFFC3, 0x7FFFFFFFFFFFFFC4#64),
      (.andi 3 1 0xFFC3, 0x1#64), (.ori 3 1 0xFFC3, 0x800000000000FFC3#64), (.xori 3 1 0xFFC3, 0x800000000000FFC2#64), (.slti 3 1 0xFFC3, 0x1#64),
      (.sltiu 3 1 0xFFC3, 0x1#64), (.ldhi 3 1 0xFFC3, 0x1FFC3#64), (.shli 3 1 7, 0x80#64), (.shri 3 1 7, 0x100000000000000#64),
      (.sari 3 1 7, 0xFF00000000000000#64), (.bfx 3 2 4 8, 0xFC#64), (.bfxs 3 2 4 8, 0xFFFFFFFFFFFFFFFC#64), (.bfx 3 2 60 8, 0xF#64),
      (.bfi 3 2 4 8, 0x1111111111111C31#64), (.div 3 1 0, 0xFFFFFFFFFFFFFFFF#64), (.divu 3 1 0, 0xFFFFFFFFFFFFFFFF#64), (.rem 3 1 0, 0x8000000000000001#64),
      (.remu 3 1 0, 0x8000000000000001#64), (.div 3 6 7, 0x8000000000000000#64), (.rem 3 6 7, 0), (.jal 1, 0x1111111111111111#64),
      (.amoadd 3 8 2, 0x1122334455667788#64), (.lb 3 8 0, 0xFFFFFFFFFFFFFF88#64), (.lbu 3 8 0, 0x88#64), (.lh 3 8 0, 0x7788#64),
      (.lhu 3 8 2, 0x5566#64), (.lw 3 8 4, 0x11223344#64), (.lwu 3 8 0, 0x55667788#64), (.ld 3 8 0, 0x1122334455667788#64)] : List (Instr × Word)).all (fun p => after (exec p.1 small) (fun t => t.reg 3) == some p.2) = true := by decide +kernel

/-- R42, R43, R48: what the word at 0x100 holds afterwards. -/
theorem test_stores : ([
      (.sb 2 8 1, 0x112233445566C388#64), (.sh 2 8 6, 0xFFC3334455667788#64), (.sw 2 8 4, 0xFFFFFFC355667788#64), (.sd 2 8 0, 0xFFFFFFFFFFFFFFC3#64),
      (.amoswap 3 8 2, 0xFFFFFFFFFFFFFFC3#64), (.amoadd 3 8 2, 0x112233445566774B#64), (.amoand 3 8 2, 0x1122334455667780#64), (.amoor 3 8 2, 0xFFFFFFFFFFFFFFCB#64),
      (.amoxor 3 8 2, 0xEEDDCCBBAA99884B#64), (.amomin 3 8 2, 0xFFFFFFFFFFFFFFC3#64), (.amomax 3 8 2, 0x1122334455667788#64), (.amocas 3 8 2 9, 0xFFFFFFFFFFFFFFC3#64),
      (.amocas 3 8 2 1, 0x1122334455667788#64)] : List (Instr × Word)).all (fun p => after (exec p.1 small) (fun t => memWord t.me.mem 0x100) == some p.2) = true := by decide +kernel

/-- R44, R45, R51: where the pc goes: taken branches, branches not taken, jumps, and the trap vector. -/
theorem test_pc : ([
      (.beq 1 1 0x10, 0x240), (.beq 1 2 0x10, 0x204), (.bne 1 2 0xFFFF, 0x1FC), (.blt 1 2 2, 0x208), (.bge 1 2 2, 0x204), (.bltu 1 2 2, 0x208),
      (.bgeu 2 1 2, 0x208), (.j 0x3FFFFFF, 0x1FC), (.jal 2, 0x208), (.jalr 31 8 4, 0x104), (.jalr 31 8 2, 0x300), (.syscall 7, 0x300),
      (.brk 7, 0x300), (.nop, 0x204), (.fence, 0x204), (.sev 1, 0x204), (.crrd 3 0x010, 0x204), (.crrd 3 0xFFF, 0x300), (.ld 3 8 1, 0x300),
      (.ld 3 10 0, 0x300), (Instr.lw 3 8 2, 0x300)] : List (Instr × Word)).all (fun p => after (exec p.1 small) (fun t => t.me.pc) == some p.2) = true := by
  decide +kernel

/-- R28: SYSCALL within a trap: a double trap halts the sequencer, with DT set and PCV at TPC. -/
theorem test_double_trap : after (exec (.syscall 7) (small.setMe { small.me with status := 0x201 })) (fun t => (t.me.run, bit t.me.status 10, t.me.pcv)) =
    some (.halted, true, 0x200) := by decide +kernel

/-- R28: TRET restores the pc, the level and IE. -/
theorem test_tret : after (exec .tret (small.setMe { small.me with status := 0x209, tpc := 0x80 })) (fun t => (t.me.pc, t.me.status)) =
    some (0x80, 0x00C) := by decide +kernel

/-- R46: CRSET and CRCLR of TVEC return the value before; a write keeps the bits that R21 leaves reserved. -/
theorem test_crset : after (exec (.crset 3 1 0x001) small) (fun t => (t.me.tvec, t.reg 3)) = some (0x8000000000000300#64, 0x300) := by decide +kernel

/-! A state that meets the hypotheses of each statement, clause by clause: the sequencer -/

/-- A sequencer that runs ADDI g3, g1, 5 at 0x200. -/
def running : State :=
  { small.setMe { small.me with run := .running, mem := memWrite [] 0x200 [0x05, 0x00, 0x61, 0x10] } with agenda := [.seq 0] }

/-- StepRunsTheDecodedInstruction; the step adds. -/
theorem wit_step : running.agenda = .seq 0 :: [] ∧ (running.seqOf 0).run = .running ∧ (running.seqOf 0).wait = none ∧
    (running.seqOf 0).interrupts = false ∧ fetchProblem (running.seqOf 0) = none ∧
    decodeSeq (fetchWord (running.seqOf 0)) = some (.addi 3 1 5) ∧
    after (step running) (fun t => (t.reg 3, t.me.pc)) = some (0x8000000000000006#64, 0x204) := by decide +kernel

/-- IntegerGroupResults, MultiplyDivideResults, CompareAndCountResults, ImmediateGroupResults, BitFieldResults, BranchResults, ControlRegisterResults,
SystemGroupResults: a sequencer at Kernel level that is not asked to stop; CYCLE reads, CMNSCR and EVM are among the registers. -/
theorem wit_plain : small.me.stopReq = false ∧ small.me.kernel = true ∧ crRead small small.cur 0x010 = some 0 ∧ crRead small small.cur 0x001 = some 0x300 ∧
    crRead small small.cur 0x100 = some 60 ∧ small.me.wakes = false := by decide +kernel

/-- SystemGroupResults: the wake condition of R50 holds. -/
theorem wit_wakes : (small.setMe { small.me with status := 0x41, evm := vset small.me.evm 3 0x8000000000000000#64, evb := vset small.me.evb 3 0x8000000000000000#64 }).me.wakes = true := by
  decide +kernel

/-- LocalLoadResults, LocalStoreResults, LocalAtomicResults, DataAccessTraps: the last word of local memory, the first byte above it, a misaligned one, and at
Task level the last byte of the one page that TWIN admits, the first above it and a word in error. -/
theorem wit_access :
    (0x3FFF8 % 8 = 0 ∧ (small.reg 10 + (0xFFF8#16).signExtend 64).toNat = 0x3FFF8 ∧ 0x3FFF8 < 0x40000) ∧
    small.me.memErr = [] ∧ memWf small.me.mem = true ∧ small.me.xe = false ∧ (small.reg 10).toNat = 0x40000 ∧ (small.reg 8 + 1).toNat % 8 ≠ 0 ∧
    (let t := small.setMe { small.me with status := 0, twin := 0, memErr := [0x20] }
     t.me.kernel = false ∧ t.me.taskPage 0xFFF = true ∧ t.me.taskPage 0x1000 = false ∧ (t.reg 8).toNat / 8 ∈ t.me.memErr) := by decide +kernel

/-- JumpResults: an aligned and a misaligned target of JALR. -/
theorem wit_jalr : (small.reg 8 + (0xFFFC#16).signExtend 64).toNat % 4 = 0 ∧ (small.reg 8 + (0x0001#16).signExtend 64).toNat % 4 ≠ 0 := by decide +kernel

/-- ControlRegisterTraps: an unassigned number; at Task level, a register other than CYCLE and CLID, and these two. -/
theorem wit_crTraps : crRead small small.cur 0xFFF = none ∧
    (let t := small.setMe { small.me with status := 0 }
     t.me.kernel = false ∧ crRead t t.cur 0x001 = some 0x300 ∧ crRead t t.cur 0x010 = some 0 ∧ crRead t t.cur 0x020 = some 0) := by decide +kernel

/-- TrapEntrySavesAndEnters: outside a trap, within one, and an interrupt. -/
theorem wit_trapEntry : (0x200#64).toNat % 4 = 0 ∧ bit small.me.status 10 = false ∧ (bit small.me.status 9 && !false) = false ∧
    (bit (0x201#64) 9 && !false) = true ∧ (bit (0x201#64) 9 && !true) = false := by decide +kernel

/-- KernelOnlyInstructions: the first and the last of major opcodes 0x30 to 0x34. -/
theorem wit_kernelOnly : encodeSeq .tret = some 0x9C000002#32 ∧ encodeSeq (.gload 0 0 0) = some 0xC0000000#32 ∧ encodeSeq (.snap 31 31) = some 0xD3FF0000#32 ∧
    0x30 ≤ (0xC0000000#32).toNat / 2 ^ 26 ∧ 0x30 ≤ (0xD3FF0000#32).toNat / 2 ^ 26 ∧ (small.setMe { small.me with status := 0 }).me.kernel = false := by
  decide +kernel

/-- InterruptAndFetchTraps: the lowest and a later cause; a pc above local memory, a Task pc outside the window, a word in error, a word of no instruction. -/
theorem wit_interrupt :
    (let q : Seq := { small.me with run := .running, status := 0xF5, evm := vset small.me.evm 0 1, evb := vset small.me.evb 0 1, fqtail := 1 }
     let t := small.setMe q
     bit q.status 2 = true ∧ (t.me.causeEnabled 0, t.me.causeEnabled 1, t.me.causeEnabled 2, t.me.causeEnabled 3) = (true, true, true, true) ∧
      (t.me.causeVal 0).isSome ∧ after (exec .interruptEntry t) (fun u => u.me.pc) = some 0x300) ∧
    fetchProblem { small.me with pc := 0x40000 } = some 0x0E ∧ fetchProblem { small.me with pc := 0x1000, status := 0 } = some 0x06 ∧
    fetchProblem { small.me with pc := 0x3FFFC, memErr := [0x7FFF] } = some 0x12 ∧
    decodeSeq (fetchWord { small.me with mem := memWrite [] 0x200 [0, 0, 0, 0xA8] }) = none := by decide +kernel

/-- SequencerEvents: a held sequencer after GO, running, waiting with and without its wake, and one whose stop is due. -/
theorem wit_sequencerEvents :
    (let t := { withSeq (fun q => { q with run := .held }) with dev := { devReset with goDone := true } }
     t.arg.c < 576 ∧ t.dev.goDone = true ∧ t.dev.boot = 0 ∧ (t.seqOf 0).run = .held ∧ after (exec .sequencerRelease t) (fun u => (u.seqOf 0).run) = some .running) ∧
    (let t := withSeq (fun q => { q with run := .waiting, status := 0x41, evm := vset q.evm 0 1, evb := vset q.evb 0 1 })
     (t.seqOf 0).wakes = true ∧ (t.seqOf 0).stopReq = false ∧ after (exec .wfeWake t) (fun u => (u.seqOf 0).pc) = some 4) ∧
    (let t := { withSeq (fun q => { q with run := .running, cycle := 0xFFFFFFFFFFFFFFFE#64, cmnscr := 60 }) with arg := { c := 0, k := 3, v := 63 } }
     (t.seqOf 0).run ≠ .held ∧ (t.seqOf 0).cycle.toNat < (t.seqOf 0).tcmp.toNat ∧ t.arg.k < 4 ∧ (t.seqOf 0).wait = none ∧ field (t.seqOf 0).fqbase 0 6 ≤ 59 ∧
      ringScru t 0 ≤ 60 ∧ memWf (t.clusterOf 0).com = true ∧ after (exec .cmnscrWrite t) (fun u => (u.seqOf 0).cmnscr) = some 60) ∧
    (let t := small.setMe { small.me with run := .running, stopReq := true }
     t.me.stopReq = true ∧ t.me.run = .running ∧ after (exec (.add 3 1 2) t) (fun u => u.me.run) = some .halted) := by decide +kernel

/-! The element's operators: one firing in slot 0 of context 0 of element 0, with operand A on port 0 and B on port 1 -/

/-- The site of the tests' firings. -/
def site0 : Site := { e := 0, x := 0, k := 0, a := some 0, b := some 1, scales := [] }

/-- A DATA token. -/
def dat (v : Word) : Tok := { tokZero with payload := v }

/-- A tile token (R54). -/
def til (fmt rows cols : Nat) (es : List Nat) : Tok :=
  { tokZero with kind := .tile, payload := descriptor fmt rows cols 0, tile := some (tileBytes fmt es) }

/-- An element that is to fire `i` with the configuration `cfg`, LIT 100, the slot-state word `sw`, its operands and what its pool holds: one granule for the
matching store, two tile slots, one accumulator and one granule of weights, both tile slots standing. -/
def elemOn (i : Instr) (cfg sw : Word) (A B : Tok) (pool : Memory) : State :=
  let w := (encode i).getD vacant
  let entry := fun (t : Tok) (n : Nat) => ({ tok := { t with port := BitVec.ofNat 4 n }, slot := none, net := false, ord := n, st := .idle } : MsEntry)
  { State.reset.setCtx 0 0 { ctxFree with
      st := .live, words := vset ctxFree.words 0 w, attr := vset (vset ctxFree.attr 1 cfg) 2 100, sw := vset ctxFree.sw 0 sw, part := 0x01010201#64, standing := 2,
      pool := pool, ccw := 0x185, ms := (if wSA w < 12 then [entry A 0] else []) ++ (if wSB w < 12 then [entry B 1] else []) } with
    site := some { site0 with a := if wSA w < 12 then some 0 else none, b := if wSB w < 12 then some 1 else none } }

/-- The site's firing may start, with no POISON operand: the hypotheses that the statements of operators share. -/
def sound (s : State) (i : Instr) : Bool :=
  match s.site with
  | some t => decide (t.x < 4) && encode i == some (vget (s.ctxOf t.e t.x).words t.k vacant) && (fireOf s t).poisonPayload == none
  | none => false

theorem sound_firesAt (s : State) (i : Instr) (h : sound s i = true) : ∃ t, FiresAt s i t ∧ (fireOf s t).poisonPayload = none := by
  unfold sound at h
  split at h
  · rename_i t ht
    simp only [Bool.and_eq_true, decide_eq_true_eq, beq_iff_eq] at h
    exact ⟨t, ⟨ht, h.1.1, h.1.2⟩, h.2⟩
  · cases h

/-- What the firing that `i` starts will do. -/
def outOf (i : Instr) (cfg sw : Word) (A B : Tok) (pool : Memory := []) : Option FireOut :=
  (after (exec i (elemOn i cfg sw A B pool)) (fun t => (t.ctxOf 0 0).inflight.map (·.out))).bind List.head?

/-- The kinds, payloads and destinations of a firing's results, and the slot-state word that it writes. -/
def seen (o : Option FireOut) : Option (List (Nat × Kind × Word) × Option Word) :=
  match o with
  | some (.emit rs sw _) => some (rs.map (fun r => (r.dest, r.tok.kind, r.tok.payload)), sw)
  | _ => none

/-- The fault of a firing. -/
def faultOf (o : Option FireOut) : Option (Nat × Word) :=
  match o with
  | some (.fault c v) => some (c, v)
  | _ => none

/-- The elements of the tile that a firing gives on its first destination. -/
def tileOf (fmt : Nat) (o : Option FireOut) : Option (List Nat) :=
  match o with
  | some (.emit (r :: _) _ _) => r.tok.tile.map (fun b => unpackElems (fmtBits fmt) 4096 b)
  | _ => none

/-- EveryOperatorStartsItsFiring, RoutingOperators, ScalarOperatorResults, MemoryOperatorsCreateEntries: a firing of each of their operators may start, and its
results are as R151, R158, R159, R160 to R162, R167 and R172 say, by hand for A = −9 and B = 3. -/
theorem test_scalars : ([
      (.steer 0 1 0 1 0 1, [(0, .data, -9#64)]), (.merge 0 1 0 15 0 1, [(0, .data, -9#64)]), (.gate 0 1 0 1 0 1, [(0, .data, -9#64), (1, .data, -9#64)]),
      (.join 0 1 0 15 0 1, [(0, .data, 0)]), (.copy 0 0 1 0 1, [(0, .data, -9#64), (1, .data, -9#64)]), (.sink 0 0 1, []),
      (.const 0 0 15 0 1, [(0, .data, 100)]), (.bound 0 0 15 0 1, [(0, .bound, -9#64)]), (.endq 0 0 1 0 1, [(0, .data, -9#64)]),
      (.commit 0 1 0 1 1, [(0, .commit, 0x77), (1, .data, 0x77)]), (.kill 0 0 15 1, [(0, .kill, 0x77)]), (.pack 0 1 0 15 0 1, [(0, .data, 0x77)]),
      (.unpack 0 0 1 0 1, [(0, .data, 1), (1, .data, 0x76)]), (.fnew 0 1 0 1 1, [(0, .data, -9#64), (1, .data, 0)]), (.fret 0 1 0 1, [(0, .data, -9#64)]),
      (.iadd 0 1 0 15 0 1, [(0, .data, -6#64)]), (.isub 0 1 0 15 0 1, [(0, .data, -12#64)]), (.imul 0 1 0 15 0 1, [(0, .data, -27#64)]),
      (.imulh 0 1 0 15 0 1, [(0, .data, -1#64)]), (.idiv 0 1 0 15 0 1, [(0, .data, -3#64)]), (.irem 0 1 0 15 0 1, [(0, .data, 0)]),
      (.elAnd 0 1 0 15 0 1, [(0, .data, 3)]), (.elOr 0 1 0 15 0 1, [(0, .data, -9#64)]), (.elXor 0 1 0 15 0 1, [(0, .data, -12#64)]),
      (.elAndn 0 1 0 15 0 1, [(0, .data, -12#64)]), (.elShl 0 1 0 15 0 1, [(0, .data, -72#64)]), (.elShr 0 1 0 15 0 1, [(0, .data, 0x1FFFFFFFFFFFFFFE#64)]),
      (.elSar 0 1 0 15 0 1, [(0, .data, -2#64)]), (.elRot 0 1 0 15 0 1, [(0, .data, 0xFFFFFFFFFFFFFFBF#64)]), (.elMin 0 1 0 15 0 1, [(0, .data, -9#64)]),
      (.elMax 0 1 0 15 0 1, [(0, .data, 3)]), (.elMinu 0 1 0 15 0 1, [(0, .data, 3)]), (.elMaxu 0 1 0 15 0 1, [(0, .data, -9#64)]),
      (.sel 0 1 0 15 0 1, [(0, .data, 3)]), (.elClz 0 0 15 0 1, [(0, .data, 0)]), (.elPopc 0 0 15 0 1, [(0, .data, 63)]),
      (.abs 0 0 15 0 1, [(0, .data, 9)]), (.addsat 0 1 0 15 0 1, [(0, .data, -6#64)]), (.evwait 0 0 15 0 1, [(0, .data, -9#64)]),
      (.evset 0 0 15 0 1, [(0, .data, -9#64)]), (.brkp 0 0 15 0 1, [(0, .data, -9#64)])] : List (Instr × List (Nat × Kind × Word))).all (fun p =>
        sound (elemOn p.1 (if (match p.1 with | .const _ _ _ _ _ => true | _ => false) then 100 else 0) 0 (dat (-9)) (dat 3) []) p.1 &&
          (seen (outOf p.1 (if (match p.1 with | .const _ _ _ _ _ => true | _ => false) then 100 else 0) 0 (dat (-9)) (dat 3))).map (·.1) == some p.2) = true := by
  decide +kernel

/-- R172, R177: the examples of CMP, with LIT for B, and of AIDX, and the bit fields of R41's kind. -/
theorem test_configured : ([
      (outOf (.cmp 0 12 2 15 0 1) 2 0 (dat (-1)) (dat 0), [(2, .data, 1)]), (outOf (.cmp 0 1 2 15 0 1) 2 0 (dat (-1)) (dat 0), [(2, .data, 1)]),
      (outOf (.aidx 0 1 0 15 0 1) 0x0000001000000083#64 0 (dat 5) (dat 0x2000000000010000#64), [(0, .data, 0x2000000000010028#64)]),
      (outOf (.ainc 0 1 0 15 0 1) 0 0 (dat 0x2000000000000000#64) (dat (-1)), [(0, .data, 0x23FFFFFFFFFFFFFF#64)]),
      (outOf (.elBfx 0 0 15 0 1) 0x10804#64 0 (dat 0xFC0) (dat 0), [(0, .data, 0xFFFFFFFFFFFFFFFC#64)]),
      (outOf (.elBfi 0 1 0 15 0 1) 0x0804#64 0 (dat 0xFFFF) (dat 0), [(0, .data, 0xF00F)])] : List (Option FireOut × List (Nat × Kind × Word))).all (fun p =>
        (seen p.1).map (·.1) == some p.2) = true ∧
    faultOf (outOf (.aidx 0 1 0 15 0 1) 0x0000001000000083#64 0 (dat 16) (dat 0x2000000000010000#64)) = some (0x0E, 16) := by decide +kernel

/-- R56, R107: with IW = 6, ADV, ADVO and CLRI from ITER 0x017F (the example of R107). -/
theorem test_tagAction : (List.map (fun ta => (match outOf (.iadd 0 1 0 15 ta 1) 0 0 { dat 1 with iter := 0x17F } { dat 2 with iter := 0x17F } with
      | some (.emit (r :: _) _ _) => some r.tok.iter
      | _ => none)) [1, 2, 3]) = [some 0x140, some 0x180, some 0x140] := by decide +kernel

/-- PoisonedFirings: a POISON operand at IADD, at IADD to SELF, and at STS. -/
theorem wit_poison : let p : Tok := { dat 7 with kind := .poison }
    seen (outOf (.iadd 0 1 0 15 0 1) 0 0 p (dat 1)) = some ([(0, .poison, 7)], none) ∧ faultOf (outOf (.iadd 0 1 14 15 0 1) 0 0 p (dat 1)) = some (0x08, 7) ∧
    faultOf (outOf (.sts 0 1 0 15 0 1) 0 0 (dat 0) p) = some (0x08, 7) := by decide +kernel

/-- TagActionsOnRoutes: words with each tag action, at the widest inner field that the statement admits. -/
theorem wit_tagActions : (List.range 12).all (fun n => wTA (BitVec.ofNat 32 (n * 16)) == n) = true ∧ ccwIW (15 * 64 : Word) = 15 := by decide +kernel

/-- LoopsAndCounters, SpeculationAndFrameOperators: LCARRY with a token and with a credit, COLALLOC and COLRET, counters that start, go on, end a row, end and are
empty, SPECT with the last colour free, LEXIT that ends and that goes on: their results and slot-state words, by hand from R152 to R162. -/
theorem test_loops : ([
      (.lcarry 0 1 0 15 0 1, 0, 0, 4, 1, [(0, .data, 4)], none), (.lcarry 0 1 0 15 0 1, 3, 0, 4, 1, [(0, .data, 4)], none),
      (.colalloc 0 0 15 0 1, 0x20001, 0, 4, 1, [(0, .data, 0x200000)], none), (.colret 0 0 15 0 1, 0, 0, 4, 1, [(0, .data, 0x4000000000000000#64)], none),
      (.count 0 1 0 1, 0, 0, 4, 0x200000000#64, [(0, .data, 0)], some 0x8000000200000001#64),
      (.count 0 1 0 1, 0, 0x8000000200000002#64, 4, 0, [(0, .fin, 2)], some 0x200000000#64),
      (.count2 0 1 0 1, 0, 0, 4, 0x0002000100000000#64, [(0, .data, 0)], some 0x8002000100000001#64),
      (.count2 0 1 0 1, 0, 0x8002000100000001#64, 4, 0, [(0, .fin, 1)], some 0x8002000100010000#64),
      (.count2 0 1 0 1, 0, 0x8002000100010001#64, 4, 0, [(0, .fin, 1)], some 0x0002000100000000#64),
      (.agen 0 1 0 15 1, 8, 0, 4, 0x0000000100000000#64, [(0, .fin, 0)], some 0x100000000#64),
      (.agen 0 1 0 15 1, 8, 0x8001000200000001#64, 4, 0, [(0, .data, 12)], some 0x8001000200000002#64),
      (.spect 0 1 0 1 0 1, 0x60, 0x20, 4, 0, [(0, .data, 4), (1, .data, 0x40)], some 0x60),
      (.lexit 0 1 0 1 0 1, 0x7F, 0, 4, 0, [(0, .data, 4), (1, .kill, 0x7F)], none), (.lexit 0 1 0 1 0 1, 0x7F, 0, 4, 1, [], none)] :
      List (Instr × Word × Word × Word × Word × List (Nat × Kind × Word) × Option Word)).all (fun p =>
        sound (elemOn p.1 p.2.1 p.2.2.1 (dat p.2.2.2.1) (dat p.2.2.2.2.1) []) p.1 &&
          seen (outOf p.1 p.2.1 p.2.2.1 (dat p.2.2.2.1) (dat p.2.2.2.2.1)) == some p.2.2.2.2.2) = true := by decide +kernel

/-- LoopsAndCounters, SpeculationAndFrameOperators: a credit token alone at LCARRY, and a release at SPECT. -/
theorem wit_credit : ([(.lcarry 0 1 0 15 0 1, 3, 0), (Instr.spect 0 1 0 1 0 1, 0x60, 0x20)] : List (Instr × Word × Word)).all (fun p =>
    let s := { elemOn p.1 p.2.1 p.2.2 (dat 0) (dat 0x20) [] with site := some { site0 with a := none } }
    sound s p.1 && (fireOf s { site0 with a := none }).a.fromMs == false && bit p.2.1 1 == (p.2.1 == 3)) = true := by decide +kernel

/-- SpeculationAndFrameOperators, EventAndTrapOperators, FaultingScalarOperators, CommandOperators: the faults that R161, R171, R174, R177 and R287 name, at the values
where they begin, and the same operators one value further. -/
theorem test_faults : ([
      (.spect 0 1 0 1 0 1, 0x60, 0x60, dat 4, dat 0, some (0x11, 0x60)), (.trap 0 1 0 15 0 1, 0, 0, dat 7, dat 1, some (0x0B, 7)), (.trap 0 1 0 15 0 1, 0, 0, dat 7, dat 0, none),
      (.brkp 0 0 15 0 1, 0x8000000000000005#64, 4, dat 7, dat 0, some (0x0B, 4)), (.brkp 0 0 15 0 1, 0x8000000000000005#64, 3, dat 7, dat 0, none),
      (.brkp 0 0 15 0 1, 5, 4, dat 7, dat 0, none), (.idiv 0 1 0 15 0 1, 2, 0, dat 7, dat 0, some (0x03, 0)), (.irem 0 1 0 15 0 1, 2, 0, dat 7, dat 0, some (0x03, 0)),
      (.idiv 0 1 0 15 0 1, 0, 0, dat 7, dat 0, none), (.idiv 0 1 0 15 0 1, 4, 0, dat 0x8000000000000000#64, dat (-1), some (0x04, 0x8000000000000000#64)),
      (.idiv 0 1 0 15 0 1, 5, 0, dat 0x8000000000000000#64, dat (-1), none), (.irem 0 1 0 15 0 1, 4, 0, dat 0x8000000000000000#64, dat (-1), none),
      (.addsat 0 1 0 15 0 1, 4, 0, dat 0x7FFFFFFFFFFFFFFF#64, dat 1, some (0x04, 0x7FFFFFFFFFFFFFFF#64)), (.addsat 0 1 0 15 0 1, 4, 0, dat 0x7FFFFFFFFFFFFFFE#64, dat 1, none),
      (.abs 0 0 15 0 1, 4, 0, dat 0x8000000000000000#64, dat 0, some (0x04, 0x8000000000000000#64)), (.abs 0 0 15 0 1, 0, 0, dat 0x8000000000000000#64, dat 0, none),
      (.cpy 0 1 0 0 1, 0, 0, til 0xB 1 4 [0, 0, 0, 0], dat 0, some (0x10, 0xB003000000000000#64)), (.cpyw 0 1 0 0 1, 0, 0, til 0xB 2 4 [0], dat 0, some (0x10, 0xB043000000000000#64)),
      (.gqp 0 1 0 0 1, 0, 0, til 0x8 1 8 [0], dat 0, some (0x10, 0x8007000000000000#64)), (.cpy 0 1 0 0 1, 0, 0, til 0xB 1 8 [0, 0, 0, 0, 15, 0, 0, 0], dat 0, none),
      (.cpyw 0 1 0 0 1, 0, 0, til 0xB 1 8 [0, 0, 0, 0, 15, 0, 0x4000000000000008, 0], dat 0, none),
      (.vadd 0 1 0 15 0 1, 0x100000, 0, til 1 1 4 [0, 0, 0, 0], dat 0, some (0x10, 0x1003000000000000#64)), (.vabs 0 0 15 0 1, 0x100000, 0, dat 0, dat 0, some (0x10, 0)),
      (.vsel 0 1 0 15 0 1, 0x100000, 0, til 0 1 4 [0, 0, 0, 0], til 0 1 4 [0, 0, 0, 0], some (0x10, 0x0003000000000000#64)),
      (.vextr 0 1 0 15 0 1, 0x100000, 0, til 0 1 4 [1, 2, 3, 4], dat 4, some (0x0E, 4)), (.vextr 0 1 0 15 0 1, 0x100000, 0, til 0 1 4 [1, 2, 3, 4], dat 3, none),
      (.vins 0 1 0 15 0 1, 0x400100000#64, 0, til 0 1 4 [1, 2, 3, 4], dat 3, some (0x0E, 4)), (.vins 0 1 0 15 0 1, 0x300100000#64, 0, til 0 1 4 [1, 2, 3, 4], dat 3, none),
      (.vperm 0 1 0 15 0 1, 0x100000, 0, til 0 1 2 [1, 2], til 8 1 2 [1, 2], some (0x0E, 2)), (.vperm 0 1 0 15 0 1, 0x100001, 0, til 0 1 2 [1, 2], til 8 1 2 [1, 2], none)] :
      List (Instr × Word × Word × Tok × Tok × Option (Nat × Word))).all (fun p =>
        sound (elemOn p.1 p.2.1 p.2.2.1 p.2.2.2.1 p.2.2.2.2.1 []) p.1 && faultOf (outOf p.1 p.2.1 p.2.2.1 p.2.2.2.1 p.2.2.2.2.1) == p.2.2.2.2.2) = true := by
  decide +kernel

/-- EventAndTrapOperators: with CLR the firing clears the bit as it starts; at a cluster that is not the context's event cluster, an entry goes there. -/
theorem wit_events :
    (let s := { elemOn (.evwait 0 0 15 0 1) 0x1FF 0 (dat 7) (dat 0) [] with seqs := [(0, { seqReset with evb := vset seqReset.evb 3 0x8000000000000000#64 })] }
     sound s (.evwait 0 0 15 0 1) = true ∧ (s.ctxOf 0 0).evcl = clusterOfElem 0 ∧ eventBit s 0 255 = true ∧
      after (exec (.evwait 0 0 15 0 1) s) (fun t => eventBit t 0 255) = some false) ∧
    ([.evset 0 0 15 0 1, Instr.evwait 0 0 15 0 1].all (fun i =>
      let s := (elemOn i 3 0 (dat 7) (dat 0) []).updCtx 0 0 (fun c => { c with evcl := 575 })
      sound s i && (s.ctxOf 0 0).evcl != clusterOfElem 0)) = true := by decide +kernel

/-- MemoryOperatorsCreateEntries: each operator of the memory port may fire, and creates its entry at A's address. -/
theorem test_entries : ([.ldt 0 1 0 15 0 1, .stt 0 1 0 15 0 1, .lds 0 1 0 15 0 1, .sts 0 1 0 15 0 1, .atom 0 1 0 15 0 1, .atomr 0 1 0 15 0 1, .casr 0 1 0 15 0 1,
      .pref 0 1 0 15 0 1, .wbld 0 1 0 15 0 1, .sigop 0 1 0 15 0 1, .ringpop 0 1 0 15 0 1, .ringrel 0 1 0 15 0 1, Instr.mcst 0 1 0 15 0 1]).all (fun i =>
        sound (elemOn i 0 0 (dat 0x4000000000001240#64) (dat 3) []) i &&
          (match outOf i 0 0 (dat 0x4000000000001240#64) (dat 3) with
            | some (.emit [] none [.entry m]) => m.va == 0x1240 && m.st == .created
            | _ => false)) = true ∧ sound (elemOn (.elFence 0 1 0 15 0 1) 0 0 (dat 0) (dat 0) []) (.elFence 0 1 0 15 0 1) = true := by decide +kernel

/-- CommandOperators: a NOP packet of the placement's own guest context, with the port ACTIVE, leaves on D0's route. -/
theorem wit_gqp :
    (let i : Instr := .gqp 0 1 0 0 1
     let t := til 0xB 1 8 [0x0000F3FF00000000, 0, 0, 0, 0, 0, 0, 0]
     let s := { elemOn i 0 0 t (dat 0) [] with guest := { guestReset with st := .active, ctxs := [(0, { guestCtxReset with v := true })] } }
     sound s i && (List.range 8).all (fun k => badGuestWord (fireOf s site0) (tileBytes 0xB [0x0000F3FF00000000, 0, 0, 0, 0, 0, 0, 0]) k == false) &&
      (guestCtxOf s 0).v && (match after (exec i s) (fun u => (u.ctxOf 0 0).inflight.map (·.out)) with
        | some [FireOut.emit [r] none []] => r.dest == 0 && r.tok.cmd == some { win := 0, elem := 0, cs := 0, iter := 0, spec := 0 }
        | _ => false)) = true := by decide +kernel

/-- LanesMeet holds of one lane and of a whole tile of 1,024 lanes. -/
theorem wit_lanesMeet : ([1, 32].all (fun n =>
      let i : Instr := .vadd 0 1 0 15 0 1
      let F := fireOf (elemOn i 0x100000 0 (til 0 n n (List.replicate (n * n) 1)) (til 0 n n (List.replicate (n * n) 2)) []) site0
      (match vecShape F (· == vIF F.cfg) (· == vIF F.cfg) true with
        | .ok p => p == (n, n)
        | .error _ => false) && bit F.cfg 20 && describable (vOF F.cfg) n n && (F.va.elems (vIF F.cfg) (n * n)).length == n * n &&
        (F.vb.elems (vIF F.cfg) (n * n)).length == n * n)) = true := by decide +kernel

/-- LaneOperatorsOfTwoOperands, TileShapeFaults: results by hand from R187 to R193 for lanes 1.5 and −2.0 with 2.0 and 0.5 (FP32, K = 1.0), and for the INT8 lanes
100, −7 with 100, 3. -/
theorem test_lanes : ([
      (.vadd 0 1 0 15 0 1, [0x40600000, 0xBFC00000]), (.vsub 0 1 0 15 0 1, [0xBF000000, 0xC0200000]), (.vmul 0 1 0 15 0 1, [0x40400000, 0xBF800000]),
      (.vfma 0 1 0 15 0 1, [0x40800000, 0x00000000]), (.vmin 0 1 0 15 0 1, [0x3FC00000, 0xC0000000]), (.vmax 0 1 0 15 0 1, [0x40000000, 0x3F000000]),
      (.vclamp 0 1 0 15 0 1, [0x3F800000, 0x3F000000]), (.vand 0 1 0 15 0 1, [0, 0]), (.vor 0 1 0 15 0 1, [0x7FC00000, 0xFF000000]),
      (Instr.vxor 0 1 0 15 0 1, [0x7FC00000, 0xFF000000])] : List (Instr × List Nat)).all (fun p =>
        let A := til 0 1 2 [0x3FC00000, 0xC0000000]
        let B := til 0 1 2 [0x40000000, 0x3F000000]
        sound (elemOn p.1 0x3F80000000100000#64 0 A B []) p.1 && tileOf 0 (outOf p.1 0x3F80000000100000#64 0 A B) == some p.2) = true ∧
    ([(.viadd 0 1 0 15 0 1, [200, 252]), (.visub 0 1 0 15 0 1, [0, 246]), (.vimul 0 1 0 15 0 1, [16, 235]), (.vimin 0 1 0 15 0 1, [100, 249]),
      (.vimax 0 1 0 15 0 1, [100, 3]), (.vshl 0 1 0 15 0 1, [0, 200]), (.vshr 0 1 0 15 0 1, [0, 31]), (.vsar 0 1 0 15 0 1, [0, 255]),
      (.vcmp 0 1 0 15 0 1, [1, 0]), (.vsel 0 1 0 15 0 1, [100, 3])] : List (Instr × List Nat)).all (fun p =>
        let A := til 6 1 2 [100, 249]
        let B := til 6 1 2 [100, 3]
        sound (elemOn p.1 0x66100000#64 0 A B []) p.1 && tileOf 6 (outOf p.1 0x66100000#64 0 A B) == some p.2) = true := by decide +kernel

/-- R184, R185: the example of the lane mask: standing slot 0 has lanes 0 and 2 on; MRG 0 keeps A's elements and MRG 1 gives +0. -/
theorem test_mask : (let A := til 0 1 4 [0x3F800000, 0x40000000, 0x40400000, 0x40800000]
    [0, 0x200000].map (fun cfg => tileOf 0 (outOf (.vadd 0 1 0 15 0 1) cfg 0 A (dat 0x41200000) [(4096, 5)]))) =
    [some [0x41300000, 0x40000000, 0x41500000, 0x40800000], some [0x41300000, 0, 0x41500000, 0]] := by decide +kernel

/-- OneTileOperators: unary results by hand from R188 and R194 to R198, the examples of VRSUM and VSCAN (R196), and VCVT's of saturation to E4M3 (R137), with
its count on D1. -/
theorem test_oneTile : ([
      (.vabs 0 0 15 0 1, 0x100000, 0, [0x40800000, 0x40800000], 0, [0x40800000, 0x40800000]), (.vneg 0 0 15 0 1, 0x100000, 0, [0x40800000, 0], 0, [0xC0800000, 0x80000000]),
      (.vexp2 0 0 15 0 1, 0x100000, 0, [0x40800000, 0xBF800000], 0, [0x41800000, 0x3F000000]), (.vlog2 0 0 15 0 1, 0x100000, 0, [0x40800000, 0], 0, [0x40000000, 0xFF800000]),
      (.vrcp 0 0 15 0 1, 0x100000, 0, [0x40800000, 0x40400000], 0, [0x3E800000, 0x3EAAAAAB]), (.vrsq 0 0 15 0 1, 0x100000, 0, [0x40800000, 0], 0, [0x3F000000, 0x7F800000]),
      (.vsqrt 0 0 15 0 1, 0x100000, 0, [0x40800000, 0x40000000], 0, [0x40000000, 0x3FB504F3]), (.vsinpi 0 0 15 0 1, 0x100000, 0, [0x3F000000, 0x3F800000], 0, [0x3F800000, 0]),
      (.vcospi 0 0 15 0 1, 0x100000, 0, [0x3F800000, 0x3F000000], 0, [0xBF800000, 0]), (.vtanh 0 0 15 0 1, 0x100000, 0, [0x42C80000, 0], 0, [0x3F800000, 0]),
      (.vscan 0 0 15 0 1, 0x100002, 0, [0x4B800000, 0x3F800000, 0x3F800000, 0x3F800000], 0, [0x4B800000, 0x4B800000, 0x4B800001, 0x4B800001]),
      (.vrsum 0 0 15 0 1, 0x100000, 0, [0x4B800000, 0x3F800000, 0x3F800000, 0x3F800000], 0, [0x4B800001]),
      (.vrmax 0 0 15 0 1, 0x100000, 0, [0x3F800000, 0xC0000000, 0x40000000, 0], 0, [0x40000000]),
      (.vtrans 0 0 15 0 1, 0x100000, 0, [1, 2, 3, 4], 0, [1, 2, 3, 4]), (.vsplit 0 0 1 0 1, 0x01100000, 0, [0x3F800001, 0], 1, [0x3F80, 0]),
      (.vcvt 0 0 15 0 1, 0x03100000, 0, [0x43E80000, 0x43EB0000, 0xC9742400, 0x7F800000, 0x7FC00000, 0x3A83126F, 0x3F800000, 0], 3, [0x7E, 0x7E, 0xFE, 0x7E, 0x7F, 1, 0x38, 0])] :
      List (Instr × Word × Nat × List Nat × Nat × List Nat)).all (fun p =>
        sound (elemOn p.1 p.2.1 0 (til 0 1 p.2.2.2.1.length p.2.2.2.1) (dat 0) []) p.1 &&
          tileOf p.2.2.2.2.1 (outOf p.1 p.2.1 0 (til 0 1 p.2.2.2.1.length p.2.2.2.1) (dat 0)) == some p.2.2.2.2.2) = true ∧
    ((outOf (.vcvt 0 0 1 0 1) 0x03100000 0 (til 0 1 2 [0x43EB0000, 0xC9742400]) (dat 0)).map (fun o => ((seen (some o)).map (fun l => (l.1.getD 1 (0, .data, 0)).2)))) =
      some (some (.data, 0x249742400)) ∧
    seen (outOf (.vrsum 0 0 15 0 1) 0x100002 0 (til 0 2 2 [0x3F800000, 0x3F800000, 0x3F800000, 0x3F800000]) (dat 0)) = some ([(0, .data, 0x40800000)], none) ∧
    tileOf 0 (outOf (.vrmax 0 0 15 0 1) 0x100001 0 (til 0 2 2 [1, 2, 3, 0]) (dat 0)) = some [3, 2] := by decide +kernel

/-- MovementOperators: VZERO, VBCAST, VPERM, VEXTR and VINS of the first and the last element. -/
theorem test_movement :
    ([(.vzero 0 0 15 0 1, 0x4100100000#64, dat 0, dat 0, [0, 0, 0, 0]), (.vbcast 0 0 15 0 1, 0x100100000#64, dat 7, dat 0, [7, 7]),
      (.vperm 0 1 0 15 0 1, 0x100000, til 0 1 3 [5, 6, 7], til 8 1 4 [2, 0, 1, 2], [7, 5, 6, 7]), (.vperm 0 1 0 15 0 1, 0x100001, til 0 1 3 [5, 6, 7], til 8 1 2 [3, 0], [0, 5]),
      (.vins 0 1 0 15 0 1, 0x100000, til 0 1 3 [5, 6, 7], dat 9, [9, 6, 7]), (.vins 0 1 0 15 0 1, 0x200100000#64, til 0 1 3 [5, 6, 7], dat 9, [5, 6, 9])] :
      List (Instr × Word × Tok × Tok × List Nat)).all (fun p =>
        sound (elemOn p.1 p.2.1 0 p.2.2.1 p.2.2.2.1 []) p.1 && tileOf 0 (outOf p.1 p.2.1 0 p.2.2.1 p.2.2.2.1) == some p.2.2.2.2) = true ∧
    seen (outOf (.vextr 0 1 0 15 0 1) 0x100000 0 (til 0 1 3 [5, 6, 7]) (dat 2)) = some ([(0, .data, 7)], none) := by decide +kernel

/-- The lane of an accumulator that a matrix firing writes. -/
def accLane (o : Option FireOut) (n : Nat) : Option (Nat × Nat × Nat) :=
  match o with
  | some (.emit [r] none [.pool off bs]) => some (r.tok.payload.toNat, off, leNat ((bs.drop (4 * n)).take 4))
  | _ => none

/-- MatrixOperators: the example of MMA (R209): 2^24 and two groups of 1 give 2^24; with both ones in one group 2^24 + 2; ACCZ, ACCLD, ACCADD and ACCRD at lane 0. -/
theorem test_matrix :
    (let one := til 3 1 64 (List.replicate 64 0x38)
     let apart := til 3 1 64 ([0x38] ++ List.replicate 31 0 ++ [0x38] ++ List.replicate 31 0)
     let near := til 3 1 64 ([0x38, 0x38] ++ List.replicate 62 0)
     let acc : Memory := [(3 * 4096 + 2, 0x80), (3 * 4096 + 3, 0x4B)]
     ([(outOf (.mma 0 1 0 15 0 1) 0x3300000000000000#64 0 one apart acc, 0x4B800000), (outOf (.mma 0 1 0 15 0 1) 0x3308000000000000#64 0 one apart acc, 0x4B800002),
       (outOf (.mma 0 1 0 15 0 1) 0x3300000000000000#64 0 one near acc, 0x4B800001), (outOf (.accz 0 0 15 0 1) 0 0 (dat 0) (dat 0) acc, 0),
       (outOf (.accld 0 0 15 0 1) 0 0 (til 0 1 1 [0x3F800000]) (dat 0) acc, 0x3F800000),
       (outOf (.accadd 0 1 0 15 0 1) 0x0000800000000000#64 0 (dat 0) (til 0 1 1 [0x4B800000]) acc, 0x4C000000),
       (outOf (.accadd 0 1 0 15 0 1) 0 0 (dat 0) (dat 0) acc, 0x4C000000)] : List (Option FireOut × Nat)).all (fun p =>
         accLane p.1 0 == some (0, 3 * 4096, p.2)) = true ∧
     tileOf 0 (outOf (.accrd 0 0 15 0 1) 0 0 (dat 0) (dat 0) acc) = some [0x4B800000] ∧
     sound (elemOn (.mma 0 1 0 15 0 1) 0x3300000000000000#64 0 one apart acc) (.mma 0 1 0 15 0 1) = true) := by decide +kernel

/-- MatrixOperators: MMAW with one row of E4M3 weights at offset 0, and MMAS with a scale token for each side. -/
theorem wit_weights :
    (let one := til 3 1 32 (List.replicate 32 0x38)
     let s := elemOn (.mmaw 0 1 0 15 0 1) 0x3300000000000000#64 0 one (dat 0) ((List.range 32).map (fun k => (4 * 4096 + k, 0x38)))
     sound s (.mmaw 0 1 0 15 0 1) = true ∧ accLane ((after (exec (.mmaw 0 1 0 15 0 1) s) (fun t => (t.ctxOf 0 0).inflight.map (·.out))).bind List.head?) 0 =
       some (0, 3 * 4096, 0x42000000)) ∧
    (let one := til 3 1 32 (List.replicate 32 0x38)
     let s0 := elemOn (.mmas 0 1 0 15 0 1) 0x3300000000000000#64 0 one one []
     let sc : MsEntry := { tok := { dat 0x3F8000#64 with port := 0 }, slot := none, net := true, ord := 2, st := .idle }
     let s := { s0.updCtx 0 0 (fun c => { c with ms := c.ms ++ [sc, { sc with ord := 3 }] }) with site := some { site0 with scales := [2, 3] } }
     sound s (.mmas 0 1 0 15 0 1) = true ∧ (fireOf s { site0 with scales := [2, 3] }).scales.length = 2) := by decide +kernel

/-! Placements, frames and faults -/

/-- An image of one plot (R116 to R118): element 0 owns port 0 in a SINK and is entry 0; one granule of matching store each. -/
def image : List Byte :=
  let z := fun (n : Nat) => List.replicate n (0 : Byte)
  let words := fun (w : Nat) => leBytes 4 w ++ (List.replicate 15 (leBytes 4 0x0BFFFF00)).flatten
  let rec' := fun (w : Nat) => words w ++ z 368 ++ leBytes 8 (10 * 2 ^ 32) ++ leBytes 8 1 ++ z 64
  leBytes 4 0x3149474C ++ leBytes 4 1 ++ leBytes 4 0x10001 ++ leBytes 4 2176 ++ leBytes 4 64 ++ leBytes 4 128 ++ z 40 ++ z 64 ++
    rec' 0x0B0FFF00 ++ rec' 0x0BFFFF00 ++ rec' 0x0BFFFF00 ++ rec' 0x0BFFFF00

/-- A Kernel sequencer with bytes at 0x1000 of its local memory. -/
def imagedWith (bs : List Byte) : State := withSeq (fun q => regs [(1, 0x1000)] { q with mem := memWrite [] 0x1000 bs })

theorem imagedWith_read (bs : List Byte) (n : Nat) (hn : n = bs.length) (h : n ≤ 0x3F000) : readForSeq (imagedWith bs) 0x1000 n = .ok bs [] := by
  have hw : windowSize = 0x40000 := rfl
  have hm : (imagedWith bs).me.mem = memWrite [] 0x1000 bs := rfl
  have he : (imagedWith bs).me.memErr = [] := rfl
  have hr : memRead (memWrite [] 0x1000 bs) 0x1000 n = bs := memRead_memWrite (m := []) rfl _ _ _ hn
  simp only [readForSeq]
  rw [if_pos (by simp [windowSize])]
  simp only [readLocal, he, hm, hr]
  rw [if_neg (by omega), List.find?_eq_none.mpr (by simp)]

/-- A Kernel sequencer with the image in its local memory. -/
def imaged : State := imagedWith image

/-- PlacementInstructions, GLOAD: the header and the image are sound, there is room, and PLID 0 is free. -/
theorem wit_gload : imaged.me.stopReq = false ∧ imaged.me.kernel = true ∧ (imaged.reg 0).toNat < 4 ∧ (imaged.reg 1).toNat = 0x1000 ∧
    headerOk (image.take 64) = true ∧ imSIZE (image.take 64) = 2176 ∧ image.length = 2176 ∧ imageFault image = none ∧ imaged.pa.isNone ∧
    placeImage imaged image (bit (imaged.reg 0) 1) = some [(0, 0)] ∧ (imaged.placeOf 0).isNone := by decide +kernel

/-- A placement of a graph like that one, each element with a tile slot too, with frame 0 as given. -/
def place0 (f : Frame) : Placement where
  n := 1
  entries := [0]
  parts := [0x101, 0x101, 0x101, 0x101]
  tsinit := [0, 0, 0, 0]
  edges := []
  guestPlots := []
  map := [some (0, 0)]
  saved := []
  stagedIn := []
  moving := none
  saving := []
  root := none
  prio := none
  oneDie := true
  frames := [(0, f)]
  transient := false

/-- The context of its element `el`. -/
def ctx0 (el : Nat) : Ctx := { ctxFree with
  st := .live, el := el, words := vset ctxFree.words 0 (if el = 0 then 0x0B0FFF00#32 else vacant), ccw := 0xA00000005#64, part := 0x101 }

/-- The machine with such a graph placed as PLID 0 by the Kernel sequencer of cluster 0, whose g1 to g4 are given. -/
def placedWith (f : Frame) (a b c : Word) : State :=
  let s0 := withSeq (fun q => regs [(1, a), (2, b), (3, c)] q)
  let s1 := (List.range 4).foldl (fun s e => s.setCtx e 0 (ctx0 e)) s0
  { s1 with places := [(0, place0 f)] }

/-- An OPEN frame with its hold. -/
def opened : Frame := { frameFree with st := .opened, gen := 1, hold := true }

/-- What an answered instruction leaves in g4. -/
def answer (i : Instr) (s : State) : Option Word := after (exec i s) (fun t => t.reg 4)

/-- PlacementInstructions, GEVICT: an empty placement with no frame goes. -/
def unframed : State := { placedWith frameFree 0 0 0 with places := [(0, { place0 frameFree with frames := [] })] }

theorem wit_gevict : (unframed.reg 1).toNat < 2 ^ 14 ∧ unframed.placeOf 0 = some { place0 frameFree with frames := [] } ∧ placementEmpty unframed 0 = true ∧
    answer (.gevict 4 1) unframed = some 0 ∧ after (exec (.gevict 4 1) unframed) (fun t => ((t.placeOf 0).isNone, (t.ctxOf 3 0).st)) = some (true, .free) := by
  decide +kernel

theorem wit_gevict_frames : ∀ f, (unframed.frameOf 0 f).st = .free := fun _ => rfl

/-- FrameInstructions: FALLOC of frame 0 (FREE) with EVEN and EVB; FFREE of a COMPLETE frame and of an OPEN one with its hold only; FKILL; the status words of R98 to R100. -/
theorem wit_frames :
    (let s := placedWith frameFree 0x1FF000000#64 0 0
     regionOk s (s.reg 2) (s.reg 3) = true ∧ (s.frameOf 0 0).st = .free ∧ custodySum s 0 0 1 = 0 ∧ (∀ k ∈ placeClusters (place0 frameFree), 0 ≤ pagesFree s k) ∧
      answer (.falloc 4 1 2 3) s = some 0x400) ∧
    (let s := placedWith { opened with st := .complete } 0 0 0
     answer (.ffree 4 1) s = some 0 ∧ after (exec (.ffree 4 1) s) (fun t => (t.frameOf 0 0).st) = some .free) ∧
    (let s := placedWith opened 0 0 0
     onlyHold s 0 0 = true ∧ answer (.ffree 4 1) s = some 0 ∧ after (exec (.fkill 4 1) s) (fun t => ((t.frameOf 0 0).st, t.me.wait)) =
       some (.killing, some (.bump 4 0 0))) := by decide +kernel

/-- FrameInstructions: TINJ of a DATA token on entry 0, without and with RELEASE, and of a tile of one byte. -/
theorem wit_tinj :
    ([0, 0x40000000, 0x80000000].all (fun a =>
      let s := { placedWith opened a (if a = 0x80000000 then 0x6000000000000000#64 else 7) 0x100 with clusters := [] }
      tinjArgsOk (s.reg 1) (s.reg 2) && (s.frameOf 0 0).st == .opened && decide ((s.reg 3).toNat % 64 = 0) &&
        (match inject s 0 (entVelem 0) (chanEntry 0) (tinjToken s 0 0 (s.reg 1) (s.reg 2) (entPORT 0) (if a = 0x80000000 then some [0] else none)) with
          | .taken _ => true
          | _ => false))) = true ∧
    after (exec (.tinj 4 1 2 3) (placedWith opened 0x40000000 7 0)) (fun t => (t.reg 4, (t.frameOf 0 0).st, (t.frameOf 0 0).hold, ((t.ctxOf 0 0).ms.map (·.tok.payload)))) =
      some (0, .running, false, [7]) := by decide +kernel

/-- CensusReadsTheFabric: the last item, the first number that is none, and a cluster that does not exist. -/
theorem wit_census : let s := placedWith opened 0 0x12 0x13
    (s.reg 1).toNat = 0 ∧ (s.reg 2).toNat = 0x12 ∧ 0x12 < (s.reg 3).toNat ∧ field (0x60000000 : Word) 24 7 = 96 ∧ field (0x300000000 : Word) 31 3 = 6 ∧
      answer (.census 4 1 2) s = some 0 ∧ after (exec (.census 4 1 3) s) (fun t => field t.me.tcause 0 8) = some 0x0E := by decide +kernel

/-- A pending fault of element 0 with SEQ 5: an IADD in slot 1, whose operands stand in the matching store. -/
def faulted (a : Word) : State :=
  let m := fun (n : Nat) (b : Bool) => ({ tok := { tokZero with gen := 1, port := BitVec.ofNat 4 n }, slot := none, net := false, ord := n, st := .fault 9 b } : MsEntry)
  let s0 := (placedWith { opened with st := .running, hold := false } a 11 12).updCtx 0 0 (fun c => { c with words := vset c.words 1 0x20010F00#32, ms := [m 0 false, m 1 true] })
  let p : Pending := { id := 9, fseq := some 5, vp := 0, el := 0, k := 1, plid := 0, frame := 0, gen := 1, tag := { tokZero with gen := 1 }, bval := 0, settle := none }
  { s0 with clusters := [(0, { clusterReset with dir := [p] })] }

/-- FaultSettlingInstructions: SEQ 5 names the fault and SEQ 6 none. -/
theorem wit_faults : let s := faulted 0x8000000000000005#64
    ((pendingOf s 0 (field (s.reg 1) 0 62)).map (·.id)) = some 9 ∧ ((pendingOf s 0 5).bind (faultHome s)) = some (0, 0) ∧
      ((pendingOf s 0 5).map (fun p => tileFault s p 0 0)) = some false ∧ (pendingOf s 0 6).isNone ∧
      answer (.fres 4 1 2 3) s = some 0 ∧ answer (.fdisc 4 1) (faulted 5) = some 0 ∧ answer (.fretry 4 1) (faulted 5) = some 0 ∧
      answer (.fretry 4 1) (faulted 6) = some 0x0900000000000000#64 ∧
      after (exec (.fres 4 1 2 3) s) (fun t => (t.clusterOf 0).dir.map (fun p => p.settle.map (fun v => v.1.map (fun r => (r.dest, r.tok.payload))))) = some [some [(0, 11)]] := by
  decide +kernel

/-- The placement with a root, so that it may be saved, and its plot LIVE, draining for cluster 0 (`saving`), or saved at 0. -/
def rooted (f : Frame) (a b c : Word) (g : Placement → Placement) : State :=
  let s := placedWith f a b c
  { s with places := [(0, g { place0 f with root := some (0, 1) })] }

/-- A saved plot with no tokens. -/
def saved0 : Saved where
  vp := 0
  cl := 0
  addr := 0
  size := 1920
  toks := []
  ctxs := List.replicate 4 { evcl := 0, qexp := 0, throttled := false, wins := [], budget := [], stepped := [], paused := [], pauseReq := [], stagings := [], marksIn := [] }
  evicted := none
  prioAt := 5
  filling := none

/-- ContextInstructions: CPRIO of the highest priority; CSAVE that begins and one that ends; CRSTR that waits for its plot to fit. -/
theorem wit_contexts :
    (let s := placedWith opened 0 7 0
     (s.reg 2).toNat < 8 ∧ after (exec (.cprio 4 1 2) s) (fun t => (t.ctxOf 0 0).newPrio) = some (some 7)) ∧
    (let s := rooted opened 0 0 0x10000 id
     hbmRange s 0 0x10000 = true ∧ after (exec (.csave 4 1 2 3) s) (fun t => ((t.ctxOf 3 0).st, t.me.wait)) = some (.draining, some .again)) ∧
    (let s := (List.range 4).foldl (fun s e => s.updCtx e 0 (fun c => { c with st := .draining })) (rooted opened 0 0 0x10000 (fun p => { p with saving := [(0, some 0)] }))
     saveReady s (0, 0) = true ∧ (match finishSave s 0 0 (0, 0) 0 0x10000 none with
       | .ok _ n => decide (n ≤ 0x10000 ∧ 0 < n)
       | _ => false) = true) := by decide +kernel

/-- A context image (R342) of element `el` of that plot: vacant slots that hold no token, one free tile slot. -/
def savedImage (el : Nat) : List Byte :=
  (List.replicate 16 (leBytes 4 0x0BFFFF00)).flatten ++ List.replicate 368 0 ++ leBytes 8 (10 * 2 ^ 32 + 5) ++ leBytes 8 0x101 ++ leBytes 8 (el * 2 ^ 26) ++
    List.replicate 56 0

/-- The four images of the plot at HBM address 0. -/
def savedHbm : Memory := memWrite [] 0 ((List.range 4).flatMap savedImage)

/-- A plot saved at HBM address 0; g3 is given. -/
def savedPlot (c : Word) (w : Saved) : State :=
  let s := rooted opened 0 0 c (fun p => { p with map := [none], saved := [w] })
  { s with elems := [], hbm := savedHbm, hbmKey := (List.range 16).map (fun l => (l, 0)) }

/-- Its placement. -/
def savedPl (w : Saved) : Placement := { place0 opened with root := some (0, 1), map := [none], saved := [w] }

/-- The images are 2 KiB. -/
theorem savedBytes_length : ((List.range 4).flatMap savedImage).length = 2048 := by
  have h (el : Nat) : (savedImage el).length = 512 := by
    simp only [savedImage, List.length_append, List.length_flatten, List.map_replicate, length_leBytes, List.length_replicate]; rfl
  simp only [List.length_flatMap, h]; rfl

/-- They are what memory holds. -/
theorem savedPlot_hbm (c : Word) (w : Saved) : (savedPlot c w).hbm = savedHbm := by simp only [savedPlot]

/-- Each image: where it lies, how long it is and that CRSTR takes it. -/
theorem savedImage_parts : ∀ el ∈ [0, 1, 2, 3], (((List.range 4).flatMap savedImage).drop (512 * el)).take 512 = savedImage el ∧
    ciNENT (savedImage el) = 0 ∧ ciNGRAN (savedImage el) = 0 ∧ ciOk (savedPl saved0) 0 0 el 0 (savedImage el) = true := by decide +kernel

/-- The read of an image. -/
theorem savedPlot_read (s : State) (hm : s.hbm = savedHbm) (el : Nat) (he : el ∈ [0, 1, 2, 3]) (hf : firstBad s 0 (512 * el) 512 = none) :
    readKeyed s 0 (512 * el) 512 = .ok (savedImage el) := by
  have hl := savedBytes_length
  have hb : 512 * el + 512 ≤ ((List.range 4).flatMap savedImage).length := by simp at he; omega
  have hp := memRead_memWrite_part (m := []) rfl 0 (512 * el) 512 _ hb
  rw [Nat.zero_add, (savedImage_parts el he).1] at hp
  simp only [readKeyed, hf, hm, savedHbm, hp]

/-- No image holds a token. -/
theorem savedPlot_count (s : State) (h : ∀ el ∈ [0, 1, 2, 3], readKeyed s 0 (512 * el) 512 = .ok (savedImage el)) : tokCounts s 0 4 0 = [0, 0, 0, 0] := by
  have n (el : Nat) (he : el ∈ [0, 1, 2, 3]) := (savedImage_parts el he).2
  have h0 := h 0 (by decide)
  have h1 := h 1 (by decide)
  have h2 := h 2 (by decide)
  have h3 := h 3 (by decide)
  simp only [Nat.mul_zero, Nat.mul_one, show 512 * 2 = 1024 from rfl, show 512 * 3 = 1536 from rfl] at h0 h1 h2 h3
  simp only [tokCounts, h0, h1, h2, h3, n 0 (by decide), n 1 (by decide), n 2 (by decide), n 3 (by decide), Nat.mul_zero, Nat.add_zero, Nat.zero_add, Nat.reduceAdd]

/-- The images of elements that hold no token lie 512 bytes apart. -/
theorem readImages_empty {s : State} {pl : Placement} {p v key el a : Nat} {ns : List Nat} {h : List Byte} {more : List (List Byte)}
    (hr : hbmRange s a 512 = true) (hk : readKeyed s key a 512 = .ok h) (hc : ciOk pl p v el 0 h = true) (hn : ciNENT h = 0) (hg : ciNGRAN h = 0)
    (hm : readImages s pl p v key ns (el + 1) (a + 512) = .bytes more) :
    readImages s pl p v key (0 :: ns) el a = .bytes (h :: more) := by
  simp [readImages, hr, hk, hc, hn, hg, hm]

/-- The four images read. -/
theorem savedPlot_images (s : State) (w : Saved) (h : ∀ el ∈ [0, 1, 2, 3], readKeyed s 0 (512 * el) 512 = .ok (savedImage el))
    (hr : ∀ el ∈ [0, 1, 2, 3], hbmRange s (512 * el) 512 = true) :
    readImages s (savedPl w) 0 0 0 [0, 0, 0, 0] 0 0 = .bytes ((List.range 4).map savedImage) := by
  have one (el : Nat) (he : el ∈ [0, 1, 2, 3]) (ns : List Nat) (more : List (List Byte))
      (hm : readImages s (savedPl w) 0 0 0 ns (el + 1) (512 * el + 512) = .bytes more) :
      readImages s (savedPl w) 0 0 0 (0 :: ns) el (512 * el) = .bytes (savedImage el :: more) :=
    let n := savedImage_parts el he
    readImages_empty (hr el he) (h el he) ((rfl : ciOk (savedPl w) 0 0 el 0 (savedImage el) = ciOk (savedPl saved0) 0 0 el 0 (savedImage el)).trans n.2.2.2) n.2.1 n.2.2.1 hm
  exact one 0 (by decide) _ _ (one 1 (by decide) _ _ (one 2 (by decide) _ _ (one 3 (by decide) _ _ rfl)))

/-- So tryRestore gives what the choice of a plot-context gives. -/
theorem savedPlot_restores {s : State} (w : Saved) (named : Option (Nat × Nat)) (hm : s.hbm = savedHbm)
    (hk : ∀ el ∈ [0, 1, 2, 3], firstBad s 0 (512 * el) 512 = none ∧ hbmRange s (512 * el) 512 = true) (ht : tkeyOf s 0 = 0) (hv : w.vp = 0) (hw : w.toks = []) :
    tryRestore s 0 (savedPl w) w 0 named = match restoreAt s (savedPl w) 0 named with
      | none => .noPlace
      | some pc => .ok (beginRestore s 0 (savedPl w) w pc ((List.range 4).map savedImage)) := by
  have hr (el : Nat) (he : el ∈ [0, 1, 2, 3]) := savedPlot_read s hm el he (hk el he).1
  simp only [tryRestore, ht, savedPlot_count s hr, hv, savedPlot_images s w hr (fun el he => (hk el he).2), hw]
  rfl

/-- ContextInstructions: CRSTR of the saved plot, at any plot-context. -/
theorem wit_restore :
    (let s := savedPlot 0x8000000000000000#64 saved0
     field (s.reg 3) 14 49 = 0 ∧ hbmRange s 0 2048 = true ∧ s.pa.isNone ∧ s.placeOf 0 = some (savedPl saved0) ∧
       ∃ u, tryRestore s 0 (savedPl saved0) saved0 0 none = .ok u) := by
  refine ⟨by decide +kernel, by decide +kernel, by decide +kernel, by decide +kernel, beginRestore (savedPlot 0x8000000000000000#64 saved0) 0 (savedPl saved0) saved0 (0, 0) ((List.range 4).map savedImage), ?_⟩
  rw [savedPlot_restores (s := savedPlot 0x8000000000000000#64 saved0) saved0 none (savedPlot_hbm _ _) (by decide +kernel) (by decide +kernel) rfl rfl,
    show restoreAt (savedPlot 0x8000000000000000#64 saved0) (savedPl saved0) 0 none = some (0, 0) by decide +kernel]

/-- The same with plot-context (0, 3) taken. -/
def takenPlotContext : State :=
  { savedPlot 3 saved0 with elems := [(2, { elemReset with ctx := vset elemReset.ctx 3 { ctxFree with st := .live, plid := 1 } })] }

/-- ContextInstructions: CRSTR to that plot-context. -/
theorem wit_restore_noplace : tryRestore takenPlotContext 0 (savedPl saved0) saved0 0 (some (0, 3)) = .noPlace := by
  rw [savedPlot_restores (s := takenPlotContext) saved0 (some (0, 3)) (by simp only [takenPlotContext, savedPlot_hbm]) (by decide +kernel) (by decide +kernel) rfl rfl,
    show restoreAt takenPlotContext (savedPl saved0) 0 (some (0, 3)) = none by decide +kernel]

/-- A plot that was evicted, and a release since. -/
def evictedSaved : Saved := { saved0 with evicted := some (0, 0) }
/-- That plot. -/
def evictedPlot : State := { savedPlot 0 evictedSaved with evictions := 1, releases := 1, restored := 0 }

/-- PacketsThatWait: an evicted plot that is restored; one that a restore has just met, and that the same release restores no more. -/
theorem wit_evicted : evictedPlot.pa.isNone ∧ evictedPlot.restored ≠ evictedPlot.releases ∧ evictedPlots evictedPlot = [(0, evictedSaved)] ∧
    evictedPlot.placeOf 0 = some (savedPl evictedSaved) ∧ evictedSaved.filling.isNone ∧ (∃ k ∈ evictedSaved.evicted, k.2 < evictedPlot.releases) ∧
    (let s := { evictedPlot with restored := 1 }; s.restored = s.releases) ∧
    ∃ t, tryRestore evictedPlot 0 (savedPl evictedSaved) evictedSaved 0 none = .ok t := by
  refine ⟨by decide +kernel, by decide +kernel, by decide +kernel, by decide +kernel, by decide +kernel, by decide +kernel, rfl,
    beginRestore evictedPlot 0 (savedPl evictedSaved) evictedSaved (0, 0) ((List.range 4).map savedImage), ?_⟩
  rw [savedPlot_restores (s := evictedPlot) evictedSaved none (by simp only [evictedPlot, savedPlot_hbm]) (by decide +kernel) (by decide +kernel) rfl rfl,
    show restoreAt evictedPlot (savedPl evictedSaved) 0 none = some (0, 0) by decide +kernel]

/-- A frame that logs in mode `m` to a ring of 64 KiB at HBM address 0x10000, with window 0 complete and window 1 open. -/
def logged (m : Nat) (st : FrameSt) : Frame :=
  { frameFree with st := st, gen := 1, paused := true, log := { logOff with mode := m, base := 0x10000, lg := 16, win := 1, states := [(0, .complete), (1, .opened)] } }

/-- RecorderInstructions: WMARK of the last window but one, with an event; WRETIRE of everything and up to window 0; RWIN to window 0; RSTEP over nothing. -/
theorem wit_recorder :
    (let s := rooted { logged 1 .running with log := { (logged 1 .running).log with win := 65534 } } 0 0x105 0 id
     markersEnter s 0 0 = true ∧ after (exec (.wmark 4 1 2) s) (fun t => (t.reg 4, (t.frameOf 0 0).log.cut)) = some (65535, some 65534)) ∧
    (let s := rooted (logged 1 .running) 0 0x10000 0 id
     windowComplete (s.frameOf 0 0).log 0 = true ∧ plotsAway s 0 = false ∧ irrevocableAbove s (s.frameOf 0 0).log 0 = 0 ∧
      answer (.wretire 4 1 2) s = some 0 ∧ answer (.wretire 4 1 3) s = some 0 ∧
      after (exec (.rwin 4 1 3) s) (fun t => ((t.frameOf 0 0).st, t.me.wait)) = some (.rolling, some (.bump 4 0 0))) ∧
    (let s := rooted (logged 2 .deadlocked) 0 0xFFFFFFFF 0 id
     frameStill s 0 0 = true ∧ answer (.rstep 4 1 2) s = some 0) := by decide +kernel

/-- RecorderInstructions: RWIN without FORCE over an IRREVOCABLE entry of window 1 is CROSSED, with its count; RSTEP stops before it, with none undone. -/
theorem wit_irrevocable :
    (let l : LogEntry := { va := 0, loc := 0, win := 1, iter := 0, elem := 0, cs := 0, kind := lgIRREV, undone := false, spec := 0, flen := 0, data := [] }
     let f := logged 2 .running
     let s0 := rooted { f with log := { f.log with tail := (entryBytes l).length } } 0 0 1 id
     let s := { s0 with hbm := memWrite [] 0x10000 (entryBytes l), hbmKey := [(512, 0)] }
     (logEntries s (s.frameOf 0 0).log).length = 1 ∧ irrevocableAbove s (s.frameOf 0 0).log 0 = 1 ∧ answer (.rwin 4 1 2) s = some 0x0E13000000000001#64 ∧
       answer (.rstep 4 1 3) s = some 0x0E13000000000000#64) := by decide +kernel

/-- RecorderInstructions: FSTEP that pauses, resumes and gives a budget; WCFG that stops the log, starts it and moves its ring. -/
theorem wit_stepping :
    (let s := rooted (logged 2 .running) 0 0x4000000000000000#64 0x8000000000000000#64 id
     after (exec (.fstep 4 1 2) s) (fun t => (t.ctxOf 0 0).pauseReq) = some [(0, true)] ∧ after (exec (.fstep 4 1 3) s) (fun t => (t.ctxOf 0 0).pauseReq) = some [(0, false)]) ∧
    (let s := rooted (logged 2 .running) 0 0xFFFFFFFF 0 id
     after (exec (.fstep 4 1 2) s) (fun t => Tab.getD (t.ctxOf 0 0).budget 0 0) = some 0xFFFFFFFF) ∧
    (let s := rooted (logged 1 .opened) 0 0 0 id
     answer (.wcfg 4 1 2 3) s = some 0 ∧ after (exec (.wcfg 4 1 2 3) s) (fun t => (t.frameOf 0 0).log) = some logOff) ∧
    (let s := rooted opened 0x2000000 0x10000 16 id
     ringOk s 0x10000 16 = true ∧ after (exec (.wcfg 4 1 2 3) s) (fun t => (t.frameOf 0 0).log.mode) = some 2) ∧
    (let s := rooted (logged 1 .opened) 0x5000000 0x20000 16 id
     ringOk s 0x20000 16 = true ∧ after (exec (.wcfg 4 1 2 3) s) (fun t => (t.frameOf 0 0).log.base) = some 0x20000) := by decide +kernel

/-- InvalidationsAndSnapshots: each invalidation begins; one that waits for nothing completes, and its TLBI goes on. -/
theorem wit_invalidations :
    after (exec (.tlbiPage 1 2) small) (fun t => t.me.wait) = some (some (.inval 0)) ∧ small.dev.hinvBusy = false ∧
    (let v : Inval := { k := 7, scope := 2, va := 0, asid := 0, issuer := some 0, entries := [], rids := [], guests := [], told := [] }
     let s := { small.setMe { small.me with wait := some (.inval 7) } with arg := { k := 7 }, invals := [v] }
     ((s.invals.find? (fun w => w.k == s.arg.k)).map (fun v => invalDone s v)) = some true ∧
      after (exec .invalidationComplete s) (fun t => (t.me.pc, t.me.wait)) = some (0x204, none)) ∧
    after (exec (.snap 4 1) small) (fun t => (t.me.wait, t.dev.snapSeq, t.dev.latching.length)) = some (some (.snap 1), 1, 626) ∧
    after (exec (.snap 4 1) (small.setMe { small.me with wait := some (.snap 1) })) (fun t => t.reg 4) = some 0x100000001#64 ∧
    ((latchBlock { small with dev := { small.dev with latching := [2, 48], counters := [(8, 3), (16, 5)], snap := [(16, 4)] } } 2).dev.snap,
      (latchBlock { small with dev := { small.dev with latching := [2, 48], counters := [(8, 3)], snap := [(16, 4)] } } 2).dev.snap) = ([(16, 5)], []) := by decide +kernel

/-! The fabric's events -/

/-- A token of frame 0, generation 1. -/
def tk (k : Kind) (v : Word) : Tok := { tokZero with gen := 1, kind := k, payload := v }

/-- Element 0 of a running graph holds `t` on its route 0, which leads to element 1 of its plot (port 3); its first 128 entries may be full. -/
def routed (t : Tok) (f : Frame) (full : Bool) : State :=
  let s0 := (rooted f 0 0 0 id).updCtx 0 0 (fun c => { c with routes := vset c.routes 0 0x8000000430000000#64, fifo := vset c.fifo 0 [t] })
  let s1 := s0.updCtx 1 0 (fun c => { c with ms := if full then (List.range 128).map (fun n => ({ tok := tk .data 0, slot := none, net := false, ord := n, st := .idle } : MsEntry)) else [] })
  { s1 with places := [(0, { place0 f with root := some (0, 1), edges := [{ src := 0, r := 0, tgt := 0, dst := 1, port := 3 }] })] }

/-- A RUNNING frame with `n` spill pages in cluster 0. -/
def runs (n : Nat) : Frame := { opened with st := .running, hold := false, pages := [(0, n)] }

/-- TokenEvents: a token that is accepted, spilled, held, stale and stray; a KILL, a COMMIT and a marker at the head of a route. -/
theorem wit_tokens :
    ([(runs 0, false, 1), (runs 1, true, 1), (runs 0, true, 1), ({ runs 0 with gen := 2 }, false, 1), ({ runs 0 with st := .complete }, false, 1)] : List (Frame × Bool × Nat)).all (fun p =>
      let s := routed (tk .data 7) p.1 p.2.1
      s.arg.e == 0 && (fifoHead s 0 0 0).isSome && tokenWaits s 0 0 0 && (hasSpill s (s.ctxOf 1 0) == false) &&
        msTakes s 1 0 (tk .data 7) == !p.2.1) = true ∧
    after (exec .tokenAccept (routed (tk .data 7) (runs 0) false)) (fun t => ((t.ctxOf 1 0).ms.map (fun m => (m.tok.payload, m.tok.port)), vget (t.ctxOf 0 0).fifo 0 [])) =
      some ([(7, 3)], []) ∧
    after (exec .tokenAccept (routed (tk .data 7) (runs 1) true)) (fun t => (t.spills.map (·.hbm), (t.ctxOf 1 0).spillcnt)) = some ([false], 1) ∧
    after (exec .tokenAccept (routed (tk .data 7) { runs 0 with gen := 2 } false)) (fun t => (t.clusterOf 0).stalecnt) = some 1 ∧
    after (exec .tokenAccept (routed (tk .data 7) { runs 0 with st := .complete } false)) (fun t => (t.clusterOf 0).straycnt) = some 1 := by decide +kernel

theorem wit_control :
    ([(Kind.kill, Instr.killTokenAccept), (.commit, .commitTokenAccept)] : List (Kind × Instr)).all (fun p =>
      let s := (routed (tk p.1 0x02) (runs 0) false).updCtx 1 0 (fun c => { c with ms := [{ tok := { tk .data 5 with spec := 2 }, slot := none, net := false, ord := 0, st := .idle }] })
      controlWaits s 0 0 0 p.1 && (after (exec p.2 s) (fun t => (t.ctxOf 1 0).ms.map (fun m => m.tok.spec))) == some (if p.1 == .kill then [] else [0])) = true ∧
    (let f := { logged 1 .running with paused := false, log := { (logged 1 .running).log with cut := some 1, win := 2 } }
     let s := routed (tk .mark 2) f false
     cutOpens s 0 0 = some 2 ∧ stageable s 1 0 0 = true ∧
       after (exec .cutStaging { s with arg := { e := 1 } }) (fun t => ((t.ctxOf 1 0).stagings.map (·.w), markTakes t 0 0 0)) = some ([2], true)) := by decide +kernel

/-- TokenEvents: the return of a spilled token, a KILL that reaches the spill area, completions of firings, and a settlement that takes effect. -/
theorem wit_completions :
    (let v : Spilled := { plid := 0, vp := 0, el := 1, cl := 0, hbm := false, net := false, tok := tk .data 9, chan := chanRoute 1 0 }
     let s := { routed (tk .data 7) (runs 1) false with spills := [v], arg := { e := 1 } }
     spillReturns s 1 0 = true ∧ after (exec .spillReturn s) (fun t => ((t.ctxOf 1 0).ms.map (·.tok.payload), t.spills)) = some ([9], []) ∧
       after (exec .spillAreaAnnihilate ({ s with spills := [{ v with tok := { v.tok with spec := 1 } }] }.updCtx 1 0 (fun c => { c with spillKills := [tk .kill 1] })))
         (fun t => t.spills) = some []) ∧
    ([FireOut.emit [{ dest := 0, tok := tk .data 3 }] none [], .fault 0x0B 6].all (fun o =>
      let fl : Firing := { k := 0, opc := 0x20, ends := 5, opA := plainOperand 0, opB := plainOperand 0, used := [], out := o, tag := tk .data 0, cancel := false, win := 0, spare := [] }
      let s := (routed (tk .data 7) (runs 0) false).updCtx 0 0 (fun c => { c with inflight := [fl] })
      (s.ctxOf 0 0).inflight.find? (fun f => f.k == s.arg.k) == some fl && heldOp fl.opc == false &&
        (after (exec .firingCompletion s) (fun t => ((vget (t.ctxOf 0 0).fifo 0 []).length, (t.clusterOf 0).recq.map (·.code))) ==
          some (match o with
            | .fault _ _ => (1, [0x0B])
            | _ => (2, []))))) = true ∧
    (let s := { faulted 0 with arg := { k := 9 } }
     let s1 := { s with clusters := s.clusters.map (fun c => (c.1, { c.2 with dir := c.2.dir.map (fun p => { p with settle := some ([], none) }) })) }
     ((s1.clusterOf 0).dir.map (settleable s1)) = [true] ∧ after (exec .settlementTakeEffect s1) (fun t => ((t.clusterOf 0).dir.length, (t.ctxOf 0 0).ms.length)) = some (0, 0)) := by
  decide +kernel

/-- FrameAndPlacementEvents: a census round from its start to COMPLETE and to DEADLOCKED, a quiet interval, and GEN bumps. -/
theorem wit_frameEvents :
    (let s := rooted { runs 0 with announced := true } 0 0 0 id
     after (exec .censusRoundStart s) (fun t => ((t.frameOf 0 0).round.isSome, (t.frameOf 0 0).announced)) = some (true, false)) ∧
    ([(0, false, true, FrameSt.complete), (1, false, true, .deadlocked), (1, false, false, .running), (0, true, true, .running)] : List (Nat × Bool × Bool × FrameSt)).all (fun p =>
      let s := rooted { runs 0 with round := some [{ cl := 0, count := p.1, active := p.2.1, quiet := p.2.2.1 }] } 0 0 0 id
      (after (exec .censusRoundOutcome s) (fun t => (t.frameOf 0 0).st)) == some p.2.2.2) = true ∧
    (let q := quietInterval (rooted (runs 0) 0 0 0 id) 0
     let s := rooted { runs 0 with quiet := [(1, q)] } 0 0 0 id
     quietInterval s 0 = q ∧ after (exec .quietIntervalExpiry s) (fun t => ((t.frameOf 0 0).quiet, (t.frameOf 0 0).announced)) = some ([(1, q + 1)], true)) ∧
    ([(Bump.kill, FrameSt.killing, FrameSt.opened), (.rollback 0 false, .rolling, .rolling), (.rollback 0 true, .rolling, .running)] : List (Bump × FrameSt × FrameSt)).all (fun p =>
      let s := rooted { logged 1 p.2.1 with bump := some p.1 } 0 0 0 id
      mayBump s 0 0 && frameStill s 0 0 && (waitingPackets s).isEmpty &&
        (after (exec .genBumpComplete s) (fun t => (t.frameOf 0 0).st)) == some p.2.2) = true := by decide +kernel

/-- FrameAndPlacementEvents: a priority and a pause that land, a move to a lower plot-context, a GLOAD that waits and one that gives up. -/
theorem wit_placeEvents :
    (let s := (rooted (runs 0) 0 0 0 id).updCtx 0 0 (fun c => { c with newPrio := some 7, pauseReq := [(0, true)] })
     after (exec .prioLanding s) (fun t => field (t.ctxOf 0 0).ccw 0 3) = some 7 ∧ after (exec .pauseLanding s) (fun t => (t.ctxOf 0 0).paused) = some [0]) ∧
    (let s0 := withSeq id
     let s1 := (List.range 4).foldl (fun s e => s.setCtx (4 + e) 0 { ctx0 e with st := .draining }) s0
     let s := { s1 with places := [(0, { place0 frameFree with map := [some (1, 0)], moving := some 0 })] }
     plotDrained s (1, 0) = true ∧ lowerFit s { place0 frameFree with map := [some (1, 0)], moving := some 0 } 0 (1, 0) = some (0, 0) ∧
       takenPlot s 0 0 = none ∧ (match exec .plotMove s with
         | .next t => decide (takenPlot t 0 0 = some (0, 0) ∧ (t.ctxOf 3 0).st = .filling) &&
           after (exec .plotMove t) (fun t => (t.placeOf 0).map (fun p => (p.map, p.moving))) == some (some ([some (0, 0)], none))
         | _ => false) = true) ∧
    (let s := { withSeq (fun q => { q with wait := some (.place 3 image false true 2 0 0), cycle := 0x8000000 }) with releases := 1 }
     s.arg.ok = false ∧ after (exec .placementBudgetExpiry s) (fun t => t.reg 3) = some 0x0214000000000000#64 ∧
       placeImage s image false = some [(0, 0)]) := by decide +kernel

/-- FrameAndPlacementEvents: the end of a cut, the append of a checkpoint with and without room, and the writing of a record. -/
theorem wit_records :
    (let g := (logged 1 .running).log
     let f := { logged 1 .running with log := { g with cut := some 1, win := 2, drained := [0, 1, 2, 3], states := [(0, .complete), (1, .cutting)], cutEvent := some (0, 255) } }
     let s := { rooted f 0 0 0 id with hbmKey := [(512, 0)] }
     cutDone s 0 0 = true ∧ after (exec .windowClose s) (fun t => ((t.frameOf 0 0).log.tail, eventBit t 0 255)) = some (32, true)) ∧
    ([0, 65536].all (fun head =>
      let g := (logged 1 .running).log
      let f := { logged 1 .running with log := { g with cut := some 1, win := 2, tail := head } }
      let z : Staging := { frame := 0, w := 2, done := true, marks := [], fwd := [], sw := [], accs := [], entries := [] }
      let s := (rooted f 0 0 0 id).updCtx 0 0 (fun c => { c with stagings := [z] })
      drainable s 0 0 0 == some z && logRoom (s.frameOf 0 0).log 32 == (head == 0) &&
        (after (exec .checkpointDrain s) (fun t => (t.frameOf 0 0).log.waiting)) == some (if head = 0 then [] else [{ kind := 2, loc := 0, num := 0, va := 0 }]))) = true ∧
    (let r : Record := { hdra := 0, hdrb := 0, paya := 0, payb := 0, fval := 0, elem := 0, cs := 0, opc := 0, code := 3, kind := 5, win := 0, frm := 0, aux := 0, fault := none }
     let s := { withSeq (fun q => { q with fqtail := 1022 }) with clusters := [(0, { clusterReset with recq := [r] })] }
     recordWritable s 0 = true ∧ after (exec .faultRecordWrite s) (fun t => (t.me.fqtail, t.me.fqseq, (t.clusterOf 0).recq.length)) = some (1, 1, 0)) := by decide +kernel

/-! Memory ports, copy engines and queues -/

/-- An entry of element 0's port, of slot 0 of context 0: its word, attribute word, address, stage and lines; operand B holds 5. -/
def entry (w : BitVec 32) (attr : Word) (va : Nat) (st : PortSt) (lines : List Line) : MemEntry where
  id := 0
  x := 0
  k := 0
  wrd := w
  attr := attr
  plid := 0
  tag := tk .data 0
  opA := { plainOperand (BitVec.ofNat 64 va) with tok := tk .data (BitVec.ofNat 64 va), ord := 0, fromMs := true }
  opB := { plainOperand 5 with tok := tk .data 5, ord := 1, fromMs := true }
  va := va
  lines := lines
  st := st
  hidden := []
  dead := false
  res := none
  mask := []
  todo := [0]
  taken := []
  fwd := []
  data := List.replicate 8 0
  out0 := 0
  out1 := 0
  poison := 0
  win := 0
  acks := []

/-- The machine with that entry, its graph placed with a root, its frame running, and HBM line 0 written under key 0. -/
def porting (m : MemEntry) : State :=
  let s := rooted (runs 0) 0 0 0 id
  let t : EntSt := .firing 0
  let s1 := s.updCtx 0 0 (fun c => { c with ms := [{ tok := m.opA.tok, slot := none, net := false, ord := 0, st := t }, { tok := m.opB.tok, slot := none, net := false, ord := 1, st := t }] })
  { s1.setElem 0 { s1.elemOf 0 with port := [m] } with hbm := [(8, 7)], hbmKey := [(0, 0)] }

/-- HBM bytes 120 to 127, the last word of line 0. -/
def line0 : Line := { va := 120, n := 8, loc := .hbm 120, key := 0, irrev := false, nolog := false, lvl := 0 }

/-- MemoryPortEvents: an STS of 8 bytes that is misaligned, not cached, cached; a walk that ends; an STS that is sent; an answer. -/
theorem wit_port :
    (let m := entry 0x4601FF00#32 0xC00 121 .created []
     let s := porting m
     s.entry? 0 0 = some m ∧ refillable s 0 m = true ∧ firstChecks s 0 m = some (0x07, 121)) ∧
    (let m := entry 0x4601FF00#32 0xC00 120 .created []
     let s := porting m
     let t := s.setElem 0 { s.elemOf 0 with streams := vset (s.elemOf 0).streams 0 (some { asid := 1, level := 0, vpage := 0, pte := 1 }) }
     refillable s 0 m = true ∧ firstChecks s 0 m = none ∧ rootOf s 0 = some (0, 1) ∧ allCached s 0 m (0, 1) = false ∧ allCached t 0 m (0, 1) = true ∧ refillable t 0 m = true ∧
       after (exec .streamRefill s) (fun u => (u.entry? 0 0).map (·.st)) = some (some .walking)) ∧
    (let m := entry 0x4601FF00#32 0xC00 120 .translated [line0]
     sendable (porting m) 0 m = true ∧ after (exec .memoryEntrySend (porting m)) (fun u => (u.entry? 0 0).map (·.st)) = some (some .sent)) ∧
    (let m := entry 0x4601FF00#32 0xC00 120 .performed [line0]
     answerable (porting m) 0 m = true ∧ after (exec .memoryEntryAnswer (porting m)) (fun u => (u.entry? 0 0).isNone) = some true) := by decide +kernel

/-- MemoryPortEvents: STS, LDS and ATOM ADD perform on the last word of a line; POOL lines that are away; event operations at another cluster. -/
theorem wit_home :
    ([(0x46, 5), (0x45, 0), (0x47, 12)] : List (Nat × Nat)).all (fun p =>
      let m := entry (BitVec.ofNat 32 (p.1 * 2 ^ 24 + 0x01FF00)) 0x1C00 8 .sent [{ line0 with va := 8, loc := .hbm 8 }]
      let s := porting m
      performable s 0 m && hbmOk s 0 8 8 && mSize m == 8 && awaited s 0 0 == false && (loadFrom s 0 m).all (· == .memory) && (atomicValue m 7).isSome &&
        (after (exec .homeAccessPerform s) (fun u => (leNat (memRead u.hbm 8 8), (u.entry? 0 0).map (fun v => (v.st, v.out0.toNat + leNat v.data))))) ==
          some (if p.1 = 0x45 then 7 else p.2, some (.performed, if p.1 = 0x46 then 0 else 7))) = true ∧
    (let m := entry 0x4501FF00#32 0xC00 8 .sent [{ line0 with loc := .pool 0 5 0 0 }]
     poolThere (porting m) (.pool 0 5 0 0) = false ∧ after (exec .poolAccessReturn (porting m)) (fun u => (u.entry? 0 0).map (·.st)) = some (some .translated)) ∧
    ([(0x5700FF00#32, 0x2FF, Instr.remoteEventOp), (0x5800FF00#32, 0x1FF, .remoteEvwaitMet)] : List (BitVec 32 × Word × Instr)).all (fun p =>
      let m := entry p.1 p.2.1 0 .sent []
      let s := (porting m).updCtx 0 0 (fun c => { c with evcl := 1 })
      let s1 := s.setSeq 1 { s.seqOf 1 with evb := vset (s.seqOf 1).evb 3 0x8000000000000000#64 }
      (mOpc m == 0x57 || remoteMet s1 0 m) && (after (exec p.2.2 s1) (fun u => (eventBit u 1 255, (u.entry? 0 0).map (·.st)))) == some (false, some .performed)) = true := by
  decide +kernel

/-! Copy engines and queues -/

/-- HBM of 64 GB mapped onto itself by one leaf of level 2 for every access, under key 1, with a table of each level; bytes 0 to 7 hold 7. -/
def mapped (s : State) : State :=
  { s with
    hbm := [(0, 7), (0x4000, 3), (0x4003, 8), (0x8000, 0x85), (0x8002, 0xF0)]
    hbmKey := [(0, 1), (1, 1), (128, 1), (256, 1)]
    dev := { s.dev with keys := [(1, { keyReset with v := true, sid := 1 })] } }

/-- The root of those tables. -/
def root1 : Word × Nat := (0x400000004000#64, 1)

/-- The same with the walk for an address made. -/
def walkMade (s : State) (o : Owner) (root : Word × Nat) (va : Nat) : State :=
  let r : WalkEnd := match walk s root va with
    | .ok l => .leaf l
    | .error c => .fault c
  { s with walks := s.walks ++ [{
      who := o, cl := reeveCl, key := field root.1 46 13, asid := root.2, va := va, top := field root.1 14 30, lvl := 0, tbl := 0, res := some r }] }

/-- A copy of 8 bytes from 0 to 16. -/
def copying : CeCmd where
  id := 0
  pos := 0
  iter0 := 0
  spec0 := 0
  spec := 0
  code := 0
  fva := 0
  words := [0, 16, 7, 0, 15, 0, 0, 0]
  sender := none
  plid := 0
  root := some root1
  signal := false
  tag := tokZero
  win := 0
  elemField := 0
  cs := 0
  queue := none
  got := []
  getting := none
  signaled := false

/-- CopyEngineEvents: a command that is accepted; one that stops on its root, one whose piece is read, one whose piece is written, and one that ends; a notice. -/
theorem wit_engine :
    (let t : Tok := { tk .tile 0 with tile := some (List.replicate 64 0) }
     let s := (rooted (runs 0) 0 0 0 id).updCtx 0 0 (fun c => { c with routes := vset c.routes 0 0xA000000000000000#64, fifo := vset c.fifo 0 [t] })
     ceHead s 0 0 0 = some t ∧ ceAccepts s 0 0 0 = true ∧ staleTok s 0 0 t = false ∧
       after (exec .ceCommandAccept s) (fun u => (u.clusterOf 0).ce.length) = some 1) ∧
    (let y := { copying with root := some (0, 1) }
     let s := walkMade (mapped { State.reset with clusters := [(0, { clusterReset with ce := [y] })] }) (.ce 0 0) (0, 1) 0
     cyGoesOn s 0 y = true ∧ cyCopied y = false ∧ 0 ∈ cyPieces y ∧ cySource y 0 = [(0, 8)] ∧ walkNeeded s (cyAccess 0 y .read) none 0 (0, 1) [(0, 8)] = none ∧
       (match gatherLines s (cyAccess 0 y .read) 0 none (0, 1) [] [(0, 8)] with
         | .err _ _ => true
         | _ => false) = true ∧ after (exec .ceCommandEnd s) (fun u => (u.clusterOf 0).ce.map (·.code)) = some [cTRANSLATION]) ∧
    (let y := copying
     let s := walkMade (mapped { State.reset with clusters := [(0, { clusterReset with ce := [y] })] }) (.ce 0 0) root1 0
     cyGoesOn s 0 y = true ∧ cyPiece y 0 = (0, 16, 8) ∧ walkNeeded s (cyAccess 0 y .read) none 0 root1 [(0, 8)] = none ∧
       (match gatherLines s (cyAccess 0 y .read) 0 none root1 [] [(0, 8)] with
         | .ok bs _ => decide (bs = [7, 0, 0, 0, 0, 0, 0, 0])
         | _ => false) = true ∧ after (exec .ceCommandEnd s) (fun u => (u.clusterOf 0).ce.map (fun z => (z.pos, Tab.get? z.read 0))) = some [(0, some [7, 0, 0, 0, 0, 0, 0, 0])]) ∧
    (let y := { copying with read := [(0, [7, 0, 0, 0, 0, 0, 0, 0])] }
     let s := walkMade (mapped { State.reset with clusters := [(0, { clusterReset with ce := [y] })] }) (.ce 0 0) root1 0
     cyGoesOn s 0 y = true ∧ walkNeeded s (cyAccess 0 y .write) none 0 root1 [(16, 8)] = none ∧ (match translateLine s (cyAccess 0 y .write) none 0 root1 16 8 with
       | .ok (ln, _) => ln.loc == .hbm 16 && hbmOk s ln.key 16 8
       | _ => false) = true ∧ lostFor s (cyAccess 0 y .write) 0 (.hbm 16) = false ∧ lineHeldBut s (cyHolds 0 y) (.hbm 16) = false ∧ after (exec .ceCommandEnd s) (fun u => ((u.clusterOf 0).ce.map (fun z => (z.pos, z.done)), memRead u.hbm 16 8)) =
         some ([(8, [0])], [7, 0, 0, 0, 0, 0, 0, 0])) ∧
    (let y := { copying with pos := 8 }
     let s := { State.reset with clusters := [(0, { clusterReset with ce := [y] })] }
     cyGoesOn s 0 y = true ∧ cyCopied y = true ∧ cyReturns s 0 y = true) ∧
    { State.reset with notices := [5] }.notices = [5] := by decide +kernel

/-- Queue 3 in a state, with a ring of 16 slots in host memory that takes every operation, everything in its range, and one packet published. -/
def queued (k : Queue → Queue) : State :=
  let q : Queue := { queueReset with log2n := 4, opmask := 0x7FF, qbase := 0x4000000000000000#64, widx := 1, rights := 1, ptbase := root1.1, asid := 1,
                                     ranges := vset queueReset.ranges 0 0x803A000000000000#64 }
  mapped { State.reset with queues := [(3, k q)], arg := { q := 3 } }

/-- The words of a packet. -/
def pkt (l : List Nat) : List Byte := (l ++ List.replicate (8 - l.length) 0).flatMap (leBytes 8)

/-- QueueEvents: ENABLE of a sound and of an unsound descriptor; the packets that are issued (NOP), not known (CODE 1), or awaited (BARRIER). -/
theorem wit_queues :
    ([QState.disabled, .active, .blocked, .error].all (fun st => descriptorOk ((queued (fun k => { k with st := st })).queueOf 3))) = true ∧
    descriptorOk ((queued (fun k => { k with log2n := 21 })).queueOf 3) = false ∧
    (let s := queued (fun k => { k with st := .active })
     chooseQueue s = some (3, false) ∧ (match fetchPacket s (s.queueOf 3) with
       | .ok b => (validate (s.queueOf 3) b).isNone
       | _ => false) = true ∧ after (exec .packetIssue s) (fun u => u.agenda) = some [.event .nopPacket { q := 3, k := 0 }]) ∧
    (let s := { queued (fun k => { k with st := .active }) with hostMem := [(0, 0x0B)] }
     chooseQueue s = some (3, false) ∧ (match fetchPacket s (s.queueOf 3) with
       | .ok b => validate (s.queueOf 3) b == some (1, 0, 0x0B)
       | _ => false) = true ∧ after (exec .packetIssue s) (fun u => (u.queueOf 3).st) = some .error) ∧
    (let s := queued (fun k => { k with st := .blocked, cur := some { id := 1, idx := 0, root := root1, bytes := pkt [7] } })
     mayIssue (s.queueOf 3) = true ∧ after (exec .queueUnblock s) (fun u => (u.queueOf 3).st) = some .active) := by decide +kernel

/-- A wake of queue 3 (ACTIVE, tenant 0 by requester 0 without PASID) to packet `n`: the record that its MAC admits. -/
def wakes (n : Nat) : State :=
  let s0 := queued (fun k => { k with st := .active })
  let s1 := { s0 with dev := { s0.dev with tenmap := [(0, BitVec.ofNat 128 (2 ^ 127))] } }
  let body := capBody 3 (s1.queueOf 3)
  { s1 with arg := { s1.arg with bytes := leBytes 24 body ++ leBytes 8 (capMac s1 body) ++ leBytes 8 n ++ List.replicate 24 0 } }

/-- A seal is 8 bytes. -/
theorem capMac_lt (s : State) (b : Nat) : capMac s b < 2 ^ 64 := by
  have h := leNat_lt (kmac256 (leBytes 32 s.dev.sealKey.toNat) (leBytes 24 b) 8 "")
  have hl : (kmac256 (leBytes 32 s.dev.sealKey.toNat) (leBytes 24 b) 8 "").length ≤ 8 := by rw [kmac256, sponge, List.length_take]; omega
  exact Nat.lt_of_lt_of_le h (Nat.le_trans (Nat.pow_le_pow_right (by decide) hl) (by decide))

/-- A record under the seal of its queue is valid. -/
theorem sealed_valid {s : State} {rid pasid q n : Nat} (hb : capBody q (s.queueOf q) < 2 ^ 192) (hq : capBody q (s.queueOf q) / 2 ^ 144 % 2 ^ 12 = q)
    (hk : ((s.queueOf q).rights % 2 == 1 && tenantOf s rid pasid == some (s.queueOf q).owner && ((s.queueOf q).st == .active || (s.queueOf q).st == .blocked)) = true) :
    wakeValid s (leBytes 24 (capBody q (s.queueOf q)) ++ leBytes 8 (capMac s (capBody q (s.queueOf q))) ++ leBytes 8 n ++ List.replicate 24 0) rid pasid = true := by
  generalize hB : capBody q (s.queueOf q) = B at *
  have hm := capMac_lt s B
  have h32 : leAt (leBytes 24 B ++ leBytes 8 (capMac s B) ++ leBytes 8 n ++ List.replicate 24 0) 0 32 = B + 2 ^ 192 * capMac s B := by
    have : ((leBytes 24 B ++ leBytes 8 (capMac s B) ++ leBytes 8 n ++ List.replicate 24 0).drop 0).take 32 = leBytes 24 B ++ leBytes 8 (capMac s B) := by
      rw [List.drop_zero, List.append_assoc (leBytes 24 B ++ _), List.take_left' (by simp [length_leBytes])]
    rw [leAt, this, leNat_append, leNat_leBytes, leNat_leBytes, length_leBytes]; omega
  have h40 : leAt (leBytes 24 B ++ leBytes 8 (capMac s B) ++ leBytes 8 n ++ List.replicate 24 0) 40 24 = 0 := by
    have : ((leBytes 24 B ++ leBytes 8 (capMac s B) ++ leBytes 8 n ++ List.replicate 24 0).drop 40).take 24 = List.replicate 24 0 := by
      rw [List.drop_left' (by simp [length_leBytes])]; rfl
    rw [leAt, this]; rfl
  have e1 : (B + 2 ^ 192 * capMac s B) % 2 ^ 192 = B := by omega
  have e2 : (B + 2 ^ 192 * capMac s B) / 2 ^ 192 = capMac s B := by omega
  have e3 : (B + 2 ^ 192 * capMac s B) / 2 ^ 144 % 2 ^ 12 = q := by omega
  simp only [Bool.and_eq_true] at hk
  simp only [wakeValid, h32, h40, e1, e2, e3, hB, hk.1.1, hk.1.2, hk.2, beq_self_eq_true, Bool.and_self, List.length_append, length_leBytes, List.length_replicate]

/-- QueueEvents, the wake record: that of packet 16 is valid. -/
theorem wit_wake : wakeValid (wakes 16) (wakes 16).arg.bytes 0 0 = true :=
  sealed_valid (s := wakes 16) (q := 3) (n := 16) (by decide +kernel) (by decide +kernel) (by decide +kernel)

/-- QueueEvents, the wake record: where the other packet numbers lie; one that is not sealed is not valid. -/
theorem wit_wake_counts : let k := (wakes 1).queueOf 3
    k.widx = 1 ∧ ((16 : Word) - k.ridx).toNat ≤ 2 ^ k.log2n ∧ 2 ^ k.log2n < ((17 : Word) - k.ridx).toNat ∧ wakeValid (wakes 1) [] 0 0 = false := by
  refine ⟨by decide +kernel, by decide +kernel, by decide +kernel, ?_⟩
  simp [wakeValid]

/-- Queue 3 about to issue a packet with these words, and the graph placed as PLID 0 with the queue's root and the given frame 0. -/
def issuingPkt (l : List Nat) (f : Frame) : State :=
  let s := queued (fun k => { k with st := .active, cur := some { id := 1, idx := 0, root := root1, bytes := pkt l } })
  let s1 := (List.range 4).foldl (fun s e => s.setCtx e 0 (ctx0 e)) s
  { s1 with places := [(0, { place0 f with root := some root1 })], arg := { q := 3, k := 1 } }

/-- Where the queue stands after an instruction. -/
def queueAt (i : Instr) (s : State) : Option (QState × Word × Nat) := after (exec i s) (fun u => ((u.queueOf 3).st, (u.queueOf 3).ridx, (u.queueOf 3).going.length))

/-- What PacketsAtIssue supposes of every packet. -/
def issuable (s : State) : Bool :=
  s.arg.q == 3 && ((s.queueOf 3).cur.map (·.id)) == some s.arg.k && (goOf s 3 1).isNone && (s.queueOf 3).st == .active && !owed s (.queue 3 1)

/-- PacketsAtIssue: NOP, SIGNAL that adds 2, BARRIER alone and behind another packet, WAITSIG and COPY. -/
theorem wit_packets :
    (let s := issuingPkt [0] opened
     issuable s = true ∧ pkSOP (pkt [0]) = 0 ∧ queueAt .nopPacket s = some (.active, 1, 0) ∧ queueAt .barrier s = some (.active, 1, 0)) ∧
    (let b := [3, 0, 0, 0, 0, 0, 2 * 2 ^ 62, 2]
     let s := walkMade (issuingPkt b opened) (.queue 3 1) root1 0
     issuable s = true ∧ pkSOP (pkt b) = 2 ∧ walkNeeded s (pktAccess 3 1 .atomic) none reeveCl root1 [(0, 8)] = none ∧
       (match translateLine s (pktAccess 3 1 .atomic) none reeveCl root1 0 8 with
         | .ok (ln, _) => ln.loc == .hbm 0 && hbmOk s ln.key 0 8
         | _ => false) = true ∧ lostFor s (pktAccess 3 1 .atomic) reeveCl (.hbm 0) = false ∧ lineHeld s (.hbm 0) = false ∧ after (exec .signal s) (fun u => memRead u.hbm 0 8) = some [9, 0, 0, 0, 0, 0, 0, 0]) ∧
    (let s := (issuingPkt [7] opened).updQueue 3 (fun k => { k with going := [justIssued State.reset { id := 0, idx := 0, root := root1, bytes := pkt [0] } .waitsig] })
     issuable s = true ∧ queueAt .barrier s = some (.blocked, 0, 1)) ∧
    (let s := issuingPkt [2, 0, 7] opened
     issuable s = true ∧ queueAt .waitsig s = some (.blocked, 1, 1)) ∧
    (let s := issuingPkt [4 + 5 * 128 * 2 ^ 32 + 95 * 2 ^ 32, 0, 16, 7] opened
     issuable s = true ∧ after (exec .copyPacket s) (fun u => (u.clusterOf 575).ce.length) = some 1) := by decide +kernel

/-- PacketsAtIssue: GEVICT of an empty placement, PRIO under the queue's root and under another, DEBUG PAUSE likewise. -/
theorem wit_packets_places :
    (let s0 := issuingPkt [6, 0, 0] opened
     let s := { s0 with places := s0.places.map (fun p => (p.1, { p.2 with frames := [] })) }
     issuable s = true ∧ (s.placeOf 0).map (fun p => (p.root, p.moving, p.saving)) = some (some root1, none, []) ∧ placementEmpty s 0 = true ∧
       after (exec .gevictPacket s) (fun u => (u.placeOf 0).isNone) = some true) ∧
    ([true, false].all (fun own =>
      let s0 := issuingPkt [0x70000000A] opened
      let s := { s0 with places := s0.places.map (fun p => (p.1, { p.2 with root := if own then some root1 else none })) }
      let t := { s with queues := (issuingPkt [9] opened).queues }
      issuable s && (queueAt .prioPacket s).map (·.1) == some (if own then .active else .error) &&
        issuable t && (queueAt .debugPause t).map (·.1) == some (if own then .active else .error))) = true := by decide +kernel

/-- Reading lines that all lie in host memory. -/
theorem gatherLines_host {s : State} {acc : Access} {c : Nat} {own : Option Leaf} {root : Word × Nat} {ps : List (Nat × Nat)} (f : Nat × Nat → Line) (lf : Leaf)
    (hd : ∀ l, (drainPort s l).hostMem = s.hostMem)
    (h : ∀ p ∈ ps, p.1 < 2 ^ 58 ∧ (translateLine s acc own c root p.1 p.2).toOption = some (f p, lf) ∧ (f p).loc = .host p.1 ∧ (f p).n = p.2 ∧
      lostFor s acc c (.host p.1) = false ∧ lineHeld s (.host p.1) = false) :
    gatherLines s acc c own root [] ps = .ok (ps.flatMap (fun p => memRead s.hostMem p.1 p.2)) (ps.map (fun _ => lf)) := by
  have hrs : ps.map (fun p => (p.1, translateLine s acc own c root p.1 p.2)) = ps.map (fun p => (p.1, .ok (f p, lf))) :=
    List.map_congr_left (fun p hp => by
      have := (h p hp).2.1
      cases ht : translateLine s acc own c root p.1 p.2 with
      | error c => rw [ht] at this; cases this
      | ok r => rw [ht] at this; cases this; rfl)
  have h1 : ps.find? (fun p => decide (2 ^ 58 ≤ p.1)) = none := List.find?_eq_none.mpr (fun p hp => by have := (h p hp).1; simp; omega)
  simp only [gatherLines, hrs, h1, List.filterMap_map, Function.comp_def, List.filterMap_eq_map']
  rw [List.findSome?_eq_none_iff.mpr ?_, List.find?_eq_none.mpr ?_, List.find?_eq_none.mpr ?_]
  · rw [if_neg (by simp only [List.any_map, List.any_eq_true, not_exists, not_and]; intro p hp; simp [(h p hp).2.2.1, (h p hp).2.2.2.2.2])]
    simp only [List.flatMap_def, List.map_map, Function.comp_def]
    congr 2
    apply List.map_congr_left
    intro p hp
    simp [(h p hp).2.2.1, (h p hp).2.2.2.1, (h p hp).2.2.2.2.1, readLoc, hd]
  · intro x hx
    obtain ⟨p, hp, rfl⟩ := List.mem_map.mp hx
    simp [(h p hp).2.2.1, (h p hp).2.2.2.2.1, readLoc]
  · intro x hx
    obtain ⟨p, hp, rfl⟩ := List.mem_map.mp hx
    simp [(h p hp).2.2.1]
  · intro x hx
    obtain ⟨p, hp, rfl⟩ := List.mem_map.mp hx
    rfl

/-- PacketsAtIssue: GLOAD of the image at host address 0, to which the leaf of page 0 leads. -/
def gloading : State :=
  let s := issuingPkt [5, 0, 0x10000] opened
  { walkMade { s with places := [], hbm := (mapped State.reset).hbm.map (fun c => if c.1 = 0x8000 then (c.1, 0xA5) else c) } (.queue 3 1) root1 0 with
    hostMem := memWrite [] 0 image }

/-- The header and the whole image read, line by line. -/
theorem gloading_reads : ∀ n ∈ [64, 2176], ∃ ls, gatherLines gloading (pktAccess 3 1 .read) reeveCl none root1 [] (splitLines (n + 1) 0 n) = .ok (image.take n) ls := by
  intro n hn
  have h : ∀ n ∈ [64, 2176], n ≤ image.length ∧ ∀ p ∈ splitLines (n + 1) 0 n, p.1 < 2 ^ 58 ∧ (translateLine gloading (pktAccess 3 1 .read) none reeveCl root1 p.1 p.2).toOption = some ((
    { va := p.1, n := p.2, loc := .host p.1, key := 1, irrev := false, nolog := false, lvl := 2 } : Line), ({ asid := 1, level := 2, vpage := 0, pte := 0xF000A5#64 } : Leaf)) ∧
      lostFor gloading (pktAccess 3 1 .read) reeveCl (.host p.1) = false ∧ lineHeld gloading (.host p.1) = false := by decide +kernel
  have hp : gloading.posted = [] := by decide +kernel
  have hd (l : Loc) : (drainPort gloading l).hostMem = gloading.hostMem := by simp [drainPort, hp]
  have hg := gatherLines_host (fun p => { va := p.1, n := p.2, loc := .host p.1, key := 1, irrev := false, nolog := false, lvl := 2 }) _ hd
    (fun p hp => ⟨((h n hn).2 p hp).1, ((h n hn).2 p hp).2.1, rfl, rfl, ((h n hn).2 p hp).2.2⟩)
  have hr := memRead_memWrite_part (m := []) rfl 0 0 n image (by have := (h n hn).1; omega)
  rw [splitLines_memRead _ _ _ _ (by omega), show gloading.hostMem = memWrite [] 0 image by simp only [gloading]] at hg
  rw [Nat.add_zero, List.drop_zero] at hr
  rw [hr] at hg
  exact ⟨_, hg⟩

/-- PacketsAtIssue: GLOAD of that image. -/
theorem wit_packets_gload : issuable gloading = true ∧ inRange (gloading.queueOf 3) 0 2176 = true ∧ headerOk (image.take 64) = true ∧ imSIZE (image.take 64) = 2176 ∧
    [64, 2176].all (fun n => walkNeeded gloading (pktAccess 3 1 .read) none reeveCl root1 (splitLines (n + 1) 0 n) == none) = true ∧ imageFault (image.take 2176) = none ∧ placeImage gloading (image.take 2176) false = some [(0, 1)] := by decide +kernel

/-- PacketsAtIssue: RINGBIND BIND to scratchpad of cluster 0, UNBIND of a ring and of none; an ordered LAUNCH behind another. -/
theorem wit_packets_rings :
    (let b := [8, 0x40000, 0x00010001000C, 0, 0]
     let s0 := issuingPkt b opened
     let s := walkMade { s0 with hbm := [(0x4000, 3), (0x4003, 8), (0x8000, 3), (0x8003, 0x0C), (0xC000, 3), (0xC003, 0x10), (0x10080, 0xB5), (0x10082, 0x10)], hbmKey := [(128, 1), (256, 1), (384, 1), (513, 1)] }
       (.queue 3 1) root1 0x40000
     issuable s = true ∧ walkNeeded s (pktAccess 3 1 .read) none reeveCl root1 (rbLines (pkt b)) = none ∧ (ringRange s 3 (justIssued s { id := 1, idx := 0, root := root1, bytes := pkt b } (.op .again)) matches .ok (0, 0)) = true ∧
       Tab.get? s.rings (rbRING (pkt b)) = none ∧ namePLID (rbName (pkt b)) = 0 ∧ queueAt .ringbindBind s = some (.active, 1, 0)) ∧
    (let r : Ring := { cl := 0, ctl := 0, lg := 12, policy := 0, key := 0, batch := 1, tmo := 0, iter := 0, entry := 0, frame := 0, plid := 0, count := 0, pendingArrive := [], unbinding := none }
     let s := { issuingPkt [8 + 2 ^ 40] { opened with ringHolds := 1 } with rings := [(0, r)] }
     issuable s = true ∧ Tab.get? s.rings (rbRING (pkt [8 + 2 ^ 40])) = some r ∧ after (exec .ringbindUnbind s) (fun u => (u.rings.length, (u.frameOf 0 0).ringHolds)) = some (0, 0)) ∧
    (let s := (issuingPkt [0x101] opened).updQueue 3 (fun k => { k with going := [justIssued State.reset { id := 0, idx := 0, root := root1, bytes := pkt [1] } .launch] })
     issuable s = true ∧ leAt (pkt [0x101]) 1 1 % 2 = 1 ∧ queueAt .launch s = some (.blocked, 0, 1)) := by decide +kernel

/-- Queue 3 with one issued packet that waits, of the graph placed as PLID 0. -/
def waitingPkt (l : List Nat) (w : GoWait) (st : QState) (p f : Option Nat) (fr : Frame) : State :=
  let g := { justIssued State.reset { id := 1, idx := 0, root := root1, bytes := pkt l } w with plid := p, frame := f, data := leBytes 16 0 }
  (issuingPkt [0] fr).updQueue 3 (fun k => { k with st := st, cur := none, going := [g] })

/-- PacketsThatWait: a WAITSIG for the value 7 at 0, which stands there, and for 8; the last argument of a launch; its log ring; room that does not come. -/
theorem wit_waits :
    ([7, 8].all (fun v =>
      let s := walkMade (waitingPkt [2, 0, v] .waitsig .blocked none none opened) (.queue 3 1) root1 0
      walkNeeded s (pktAccess 3 1 .read) none reeveCl root1 (splitLines 9 0 8) == none && (goOf s 3 1).isSome && owed s (.queue 3 1) == false &&
        (match gatherLines s { pktAccess 3 1 .read with plain := true } reeveCl none root1 [] (splitLines 9 0 8) with
          | .ok bs _ => leNat bs == 7
          | _ => false) &&
        queueAt .waitsigSatisfied s == some (if v = 7 then (.active, 0, 0) else (.blocked, 0, 1)))) = true ∧
    (let s := waitingPkt [1 + 2 ^ 48] (.inject 0) .active (some 0) (some 0) opened
     lnNARG (pkt [1 + 2 ^ 48]) = 1 ∧ (s.frameOf 0 0).st = .opened ∧ (match inject s 0 (entVelem 0) (chanEntry 0) (tinjToken s 0 0 0 0 (entPORT 0) none) with
       | .taken _ => true
       | _ => false) = true ∧ after (exec .launch s) (fun u => ((u.frameOf 0 0).st, (u.frameOf 0 0).hold)) = some (.running, false)) ∧
    (let s0 := waitingPkt [1 + 2 ^ 40] .ring .blocked (some 0) (some 0) opened
     let s := { s0 with dev := { s0.dev with lpbase := 1, lpsize := 0x200000 } }
     lnMODE (pkt [1 + 2 ^ 40]) = 1 ∧ poolRing s (lnLOG2 (pkt [1 + 2 ^ 40])) = some 0x100000 ∧
       after (exec .launchRetry s) (fun u => ((u.frameOf 0 0).log.base, (u.queueOf 3).st)) = some (0x100000, .active)) ∧
    (let s := waitingPkt [1] (.place 3 none) .blocked none none opened
     queueAt .launchBudgetExpiry s = some (.error, 0, 0)) := by decide +kernel

/-- PacketsThatWait: a launch that ends, well or not; an eviction that begins; and no compaction. -/
theorem wit_launch_ends :
    ([true, false].all (fun ok =>
      let s0 := waitingPkt [1] .launch .active (some 0) (some 0) { opened with st := .complete, launch := some (3, 1) }
      let s := { s0 with arg := { s0.arg with ok := ok } }
      queueAt .launchCompletion s == some (if ok then .active else .error, 0, 0) && (s.pa.isNone))) = true ∧
    (let s := { waitingPkt [1] (.evict 0 0 0 []) .blocked none none opened with pa := some (.seq 5) }
     evictionBegins s 0 0 = true ∧ plotContext (place0 opened) 0 = some (0, 0) ∧ s.pa.isSome = true ∧ after (exec .evictionSave s) (fun u => (u.ctxOf 0 0).st) = some .draining) := by
  decide +kernel

/-! The package's edges -/

/-- The mapped machine, with plaintext at HBM 0, port 0 UP with credit, with a packet of 8 bytes at HBM 0 that has arrived from peer 1 (which is reached by port 0) under key
`key`. -/
def arrived (key : Nat) : State :=
  let p := { kpktZero with src := 1, rid := 5, key := key, lg2 := 3, group := 2, mask := [0], op0 := 5, data := [1, 2, 3, 4, 5, 6, 7, 8] }
  let k := { kportReset with st := .up, ena := true, credits := Vector.replicate 4 8 }
  let s := mapped { State.reset with kports := [(0, k)], arg := { pkt := some p } }
  { s with hbmKey := (0, 0) :: s.hbmKey.drop 1, dev := { s.dev with group := [(2, { maskedReset with w0 := 0x8000000000000000#64 })] } }

/-- KrydeoftEvents: the requests of a peer, granted under key 0 and refused under key 2, and their answers. -/
theorem wit_peer_requests :
    ([0, 2].all (fun key =>
      let s := arrived key
      match s.arg.pkt with
      | none => false
      | some p => p.dst == ownPeer s && pktHome s p == (key == 0) && (key != 0 || hbmOk s key 0 8) && lineBusy s true 0 8 == none && !answerLost s 0 0 && copyAdmitted s p == (key == 0) &&
          (pktAtomic p 7).isSome &&
          [(Instr.krydeoftRead, 0x10, 7), (.krydeoftWrite, 0x11, 0x0807060504030201), (.krydeoftAtomic, 0x10, 5), (.krydeoftMcwrite, 0x12, 0x0807060504030201)].all (fun c =>
            after (exec c.1 s) (fun u => (u.out.map (fun o => match o with
              | .krydeoft n r => [n, r.type, r.rid, r.dst]
              | _ => []), leNat (memRead u.hbm 0 8))) == some ([[0, c.2.1, 5, 1]], if key = 0 then c.2.2 else 7)))) = true := by decide +kernel

/-- KrydeoftEvents: the answers to an LDS and an STS of another package's line, a status of a multicast, a request that is given up, and credit that returns. -/
theorem wit_peer_answers :
    ([(0x45, Instr.krydeoftRdata, 0), (0x46, .krydeoftWack, 0), (0x46, .krydeoftWack, 1), (0x46, .remoteRequestTimeout, 3)] : List (Nat × Instr × Nat)).all (fun p =>
      let m := entry (BitVec.ofNat 32 (p.1 * 2 ^ 24 + 0x01FF00)) 0xC00 8 .away []
      let s := { porting m with
        remotes := [{ rid := 5, owner := .entry 0 0, port := 0, peer := 1, off := 0, n := 8, mc := false, key := 0, addr := 0 }]
        arg := { k := 5, pkt := some { kpktZero with src := 1, rid := 5, status := p.2.2, data := [9] } } }
      (s.remotes.find? (fun r => r.rid == 5 && !r.mc)).isSome && (s.entry? 0 0).isSome && (mLoad m || mStore m) &&
        after (exec p.2.1 s) (fun u => (u.remotes.length, (u.entry? 0 0).map (fun v => (v.poison, v.data.getD 0 0)))) ==
          some (0, some (if p.2.2 = 0 then 0 else 2, if p.1 = 0x45 then 9 else 0))) = true ∧
    (let m := entry 0x4601FF00#32 0xC00 8 .away []
     let s := { porting m with
       remotes := [{ rid := 5, owner := .entry 0 0, port := 0, peer := 1, off := 0, n := 8, mc := true }]
       arg := { k := 5, p := 1, pkt := some { kpktZero with src := 1, rid := 5, data := [4] } } }
     after (exec .krydeoftMack s) (fun u => (u.remotes.length, (u.entry? 0 0).map (·.acks))) = some (0, some [(1, 1)]) ∧
       after (exec .mcstPeerTimeout s) (fun u => (u.remotes.length, (u.entry? 0 0).map (·.acks))) = some (0, some [(1, 3)])) ∧
    (let s := { arrived 1 with kports := [(0, { kportReset with credits := Vector.replicate 4 7 })], arg := { (arrived 1).arg with k := 3 } }
     after (exec .krydeoftCredit s) (fun u => (vget (kportOf u 0).credits 0 0, (kportOf u 0).shared)) = some (8, 2)) := by decide +kernel

/-- KrydeoftEvents: what each event makes of the state of a link. -/
theorem wit_links :
    ([(.down, true, .krydeoftPortEnable, .training), (.up, true, .krydeoftPortDisable, .fencing), (.fenced, true, .krydeoftPortDisable, .down),
      (.training, true, .linkTrained, .up), (.training, false, .linkTrained, .fencing), (.up, true, .linkError, .training),
      (.fencing, true, .fencingDrained, .fenced), (.fencing, true, .fencingTimeout, .fenced)] : List (LinkSt × Bool × Instr × LinkSt)).all (fun p =>
      let s := { State.reset with kports := [(23, { kportReset with st := p.1, ena := true })], arg := { n := 23, k := 4, q := 32, ok := p.2.1 } }
      after (exec p.2.2.1 s) (fun u => (kportOf u 23).st) == some p.2.2.2) = true ∧
    ([BeatError.corrected, .retransmitted, .packetLost].map (fun b =>
      let s := { State.reset with arg := { n := 6, beat := b, q := 3 }, retries := if b == .packetLost then [(6, .reeve, 4)] else [] }
      after (exec .bridgeBeatError s) (fun u => Tab.keys u.dev.counters))) = [some [0xF8], some [0x130], some [0x168]] := by decide +kernel

/-- The guest port ACTIVE, and guest context 1 of PLID 0 in a command state, with a grant of the first 16 KiB. -/
def guested (c : GuestCst) : State :=
  let gr : Grant := { page := 0, size := 16384, va := 0, r := true, w := true, a := true, key := 1, irrev := false, nolog := false }
  let g : GuestCtx := { guestCtxReset with v := true, cst := c, grants := [gr], invs := [(none, some 0)] }
  let s := mapped ((List.range 4).foldl (fun s e => s.setCtx e 0 (ctx0 e)) State.reset)
  { s with places := [(0, { place0 (runs 0) with root := some root1 })], guest := { guestReset with st := .active, ena := true, ctxs := [(1, g)], fvec := 4 }, arg := { k := 1 } }

/-- GuestEvents: the port. -/
theorem wit_guest_port :
    ([(.down, .guestPortEnable, .training), (.active, .guestPortDisable, .down), (.fenced, .guestPortDisable, .down), (.training, .guestPortDisable, .training),
      (.training, .guestLinkTrained, .active)] : List (GuestSt × Instr × GuestSt)).all (fun p =>
      let s := { State.reset with guest := { guestReset with st := p.1, ena := true }, arg := { ok := true, n := 4 } }
      after (exec p.2.1 s) (fun u => u.guest.st) == some p.2.2) = true := by decide +kernel

/-- GuestEvents: commands, their replies, and the duties that end in a breach. -/
theorem wit_guest_commands :
    ([(.run, .guestPause, .pausing), (.paused, .guestResume, .run), (.paused, .guestSave, .saving), (.paused, .guestRestore, .restoring), (.pausing, .paused, .paused),
      (.saving, .saved, .paused), (.restoring, .restored, .paused)] : List (GuestCst × Instr × GuestCst)).all (fun p =>
      after (exec p.2.1 (guested p.1)) (fun u => (guestCtxOf u 1).cst) == some p.2.2) = true ∧
    ([(2, .run), (3, .pausing), (4, .saving), (4, .restoring)] : List (Nat × GuestCst)).all (fun p =>
      let s := { guested p.2 with arg := { k := 1, n := p.1 } }
      dutyOwed s p.1 1 && after (exec .guestDutyTimeout s) (fun u => (u.guest.st, u.guest.cause)) == some (.fenced, p.1)) = true ∧
    after (exec .guestMalformedMessage (guested .run)) (fun u => (u.guest.cause, u.out)) = some (6, [.msix 4]) := by decide +kernel

/-- GuestEvents: a packet that is forwarded; its completion and its record, and those under no tag; the completion's token. -/
theorem wit_guest_packets :
    (let t : Tok := { tk .tile 0 with tile := some (leBytes 8 (2 ^ 48) ++ List.replicate 56 0) }
     let s := (guested .run).updCtx 0 0 (fun c => { c with routes := vset c.routes 0 0xA000000000100000#64, fifo := vset c.fifo 0 [t] })
     gqpHead s 0 0 0 = some t ∧ freeTag s.guest = some 0 ∧ targetOpen s (s.ctxOf 0 0) 0 = true ∧ staleTok s 0 0 t = false ∧ t.spec = 0 ∧ pkCID t = 1 ∧
       (s.frameOf 0 0).log.mode = 0 ∧ after (exec .gqpAccept s) (fun u => ((Tab.get? u.guest.tags 0).map (·.cid), u.guest.out.length)) = some (some 1, 1)) ∧
    (let rt : RTag := { cl := 0, vp := 0, el := 0, plid := 0, tag := tk .data 0, ret := 0, fqc := 0x3FF, cid := 1, win := 0, gop := 0, done := none, ord := 0, poison := false }
     let s := { guested .run with guest := { (guested .run).guest with tags := [(9, rt)] } }
     let at9 : Arg := { r := 9, q := 1, c := 1 }
     tagOpen { s with arg := at9 } 9 = some rt ∧
       after (exec .guestCompletion { s with arg := at9 }) (fun u => (Tab.get? u.guest.tags 9).map (·.done)) = some (some (some (1, 1, 0))) ∧
       after (exec .guestFaultRecord { s with arg := at9 }) (fun u => (u.clusterOf 0).recq.map (·.code)) = some [1] ∧
       (tagOpen s 0).isNone ∧ after (exec .guestCompletion s) (fun u => u.guest.cause) = some 5 ∧
       (let d := { rt with done := some (0, 0, 7) }
        let v := { s with guest := { s.guest with tags := [(9, d)] }, arg := at9 }
        completionGoes v 9 d = true ∧ after (exec .guestCompletionEmit v) (fun u => (u.guest.tags.length, (vget (u.ctxOf 0 0).fifo 0 []).map (·.payload))) = some (0, [7]) ∧
          after (exec .guestCompletionEmit { v with guest := { v.guest with st := .fenced, ena := false } }) (fun u => u.guest.st) = some .down)) := by
  decide +kernel

/-- GuestEvents: a translation that is granted and one that is not; the coherent port's requests; the end of copies and grants. -/
theorem wit_guest_memory :
    (let s := walkMade (guested .run) (.guest 1) root1 0
     walkNeeded s (guestAccess 1 (guestCtxOf s 1) .read) none reeveCl root1 [(0, 1)] = none ∧ treqsWaiting s 1 = [] ∧ lineHeld s (.hbm 0) = false ∧ (grantFor s 1 0 .read matches .ok _) = true ∧ (grantFor s 1 (2 ^ 58) .read matches .error 0x0E) = true ∧
       after (exec .guestTreq s) (fun u => (guestCtxOf u 1).grants.length) = some 2) ∧
    (let s := { guested .run with arg := { k := 1, n := 0, gop := some (.aop 0 1), bytes := [9], mask := [true] } }
     ([AccKind.read, .write, .atomic].all (fun k => granted s 1 0 8 k matches .ok _)) = true ∧ hbmOk s 1 0 8 = true ∧ (guestAtomicNew (.aop 0 1) 7).isSome ∧
       after (exec .wrthru s) (fun u => memRead u.hbm 0 2) = some [9, 0] ∧ after (exec .clean s) (fun u => u.guest.copies) = some []) ∧
    (let s0 := guested .run
     let s := { s0 with guest := { s0.guest with copies := [0] }, arg := { k := 1, n := 0, bytes := [9], mask := [true] } }
     (granted s 1 0 1 .write matches .ok _) = true ∧
       after (exec .wrthru s) (fun u => (memRead u.hbm 0 1, u.guest.recalls, u.guest.pend.length)) = some ([7], [0], 1)) ∧
    (let s := { guested .run with stalled := [(0, .seq 0)] }
     after (exec .snpinvAnswer s) (fun u => u.agenda) = some [.seq 0] ∧ after (exec .invdone s) (fun u => ((guestCtxOf u 1).grants.length, (guestCtxOf u 1).invs)) = some (0, [])) := by
  decide +kernel

/-! The platform -/

/-- The bytes before the tag of a provisioning message: operation `op` for key 8191, with serial 1, under session 0. -/
def provHead (op : Nat) : List Byte := leBytes 2 8191 ++ leBytes 1 op ++ leBytes 5 0 ++ leBytes 8 1 ++ leBytes 16 0 ++ List.replicate 48 0

/-- The machine with that session, whose key is zero, and partition 0. -/
def sessioned : State :=
  { State.reset with dev := { devReset with partition := [(0, { maskedReset with w0 := 0x8000000000000000#64 })], sessions := [(0, 0)] } }

/-- The tag of that message. -/
def provTag (op : Nat) : List Byte := gcmTag (leBytes 32 0) (((provHead op).drop 64).take 12) ((provHead op).take 32) (((provHead op).drop 32).take 32)

/-- The message. -/
def provMessage (op : Nat) : List Byte := provHead op ++ (provTag op ++ List.replicate 32 0)

theorem provTag_length (op : Nat) : (provTag op).length = 16 := by
  have h : ((roundKeys (leBytes 32 0)).getD 14 []).length = 16 := by decide +kernel
  have hl : ∀ v, (leBytes 16 v).length = 16 := fun v => by simp [leBytes]
  simp only [provTag, gcmTag, xorBytes, aesBlock, shiftRows, List.length_zipWith, List.length_map, List.length_range, List.length_reverse, h, hl]
  rfl

theorem provHead_length (op : Nat) : (provHead op).length = 80 := by simp [provHead, leBytes]

theorem provMessage_cut (op o n : Nat) (h : o + n ≤ 80) : ((provMessage op).drop o).take n = ((provHead op).drop o).take n := by
  have hl := provHead_length op
  rw [provMessage, List.drop_append_of_le_length (by omega), List.take_append_of_le_length (by rw [List.length_drop]; omega)]

theorem provMessage_tag (op : Nat) : ((provMessage op).drop 80).take 16 = provTag op := by
  rw [provMessage, ← provHead_length op, List.drop_left, ← provTag_length op, List.take_left]

theorem provMessage_leAt (op o n : Nat) (h : o + n ≤ 80) : leAt (provMessage op) o n = leAt (provHead op) o n := by
  simp only [leAt, provMessage_cut op o n h]

/-- PlatformEvents: messages that install and that revoke the highest key verify. -/
theorem wit_provisioning : ∀ op ∈ [0, 1], pmReason sessioned (provMessage op) = 0 ∧ (provMessage op).length = 128 ∧ pmOP (provMessage op) = op := by
  intro op hop
  have hs : leAt (provHead op) 16 16 = 0 ∧ leAt (provHead op) 8 8 = 1 ∧ leAt (provHead op) 0 2 = 8191 ∧ leAt (provHead op) 3 1 = 0 ∧ leAt (provHead op) 2 1 = op := by
    revert op; decide +kernel
  have htag : pmTagOk sessioned (provMessage op) = true := by
    have hk : sessionKey sessioned (provMessage op) = some (leBytes 32 0) := by
      simp only [sessionKey, provMessage_leAt op 16 16 (by decide), hs]; rfl
    have h0 : (provMessage op).take 32 = (provHead op).take 32 := provMessage_cut op 0 32 (by decide)
    simp only [pmTagOk, hk, pmSealed, provMessage_cut op 64 12 (by decide), provMessage_cut op 32 32 (by decide), h0, provMessage_tag, provTag, beq_self_eq_true]
  refine ⟨?_, ?_, ?_⟩
  · simp only [pmReason, htag, pmSERIAL, pmKIDX, pmPIDX, provMessage_leAt op 8 8 (by decide), provMessage_leAt op 0 2 (by decide), provMessage_leAt op 3 1 (by decide), hs]
    rfl
  · simp only [provMessage, List.length_append, provHead_length, provTag_length, List.length_replicate]
  · rw [pmOP, provMessage_leAt op 2 1 (by decide)]; exact hs.2.2.2.2

theorem wit_provisioning_other : pmReason State.reset (List.replicate 128 0) = 1 ∧
    (let s := { State.reset with dev := { devReset with keys := [(1, { keyReset with revoking := true })] }, arg := { k := 1 } }
     keyQuiet s 1 = true ∧ (keyEntry s 1).revoking = true ∧ after (exec .revokeComplete s) (fun u => (keyEntry u 1).revoking) = some false) := by decide +kernel

/-- PlatformEvents: bring-up, register writes, the HDM range and samples. -/
theorem wit_platform :
    ([true, false].map (fun ok => after (exec .coldReset { mapped State.reset with arg := { ok := ok } }) (fun u => (u.dev.boot, u.hbm.length)))) =
      [some (1, 5), some (2, 5)] ∧
    after (exec .go { State.reset with dev := { devReset with boot := 1, domcfg := 0x800000003#64 } }) (fun u => (u.dev.boot, u.dev.memcfg)) = some (0, 0x800000003#64) ∧
    after (exec .registerWrite { State.reset with arg := { k := 0x18, n := 8, v := 0xFFFFFFFFFFFFFFFF#64 } }) (fun u => u.dev.hinva) = some 0x3FFFFFFFFFFFFFF#64 ∧
    (let s0 := mapped State.reset
     let s := { s0 with dev := { s0.dev with hdmkey := 1 }, arg := { hdm := some (.write 6 [1, 2]) } }
     hdmOpen s = true ∧ hdmRange s 6 2 = true ∧ lineBusy s true 6 2 = none ∧ hbmOk s 1 6 2 = true ∧ after (exec .hostHdmAccess s) (fun u => memRead u.hbm 0 8) =
       some [7, 0, 0, 0, 0, 0, 1, 2] ∧ after (exec .hostHdmAccess { s with arg := { hdm := some (.read 0 1) } }) (fun u => u.out) = some [.hdm (.data [7])] ∧
       after (exec .hostHdmAccess { s with arg := { hdm := some (.read (2 ^ 46) 1) } }) (fun u => u.out) = some [.hdm .abort]) ∧
    after (exec .powerSample { State.reset with arg := { k := 9 } }) (fun u => (u.dev.pmw, u.reeveCyc)) = some (9, 1350000) ∧
    after (exec .ethernetTransmit { State.reset with eth := [(3, { ethReset with ena := true })], arg := { p := 3, k := 64 } }) (fun u => u.out.length) = some 1 ∧
    (1216 : Nat) = (List.replicate 1216 (0 : Byte)).length := by decide +kernel

/-- A ring of 4096 bytes in cluster 0 bound to entry 0 of frame 0 of the graph, with `n` records that no ARRIVE has announced. -/
def ringed (n : Nat) : State :=
  let r : Ring := { cl := 0, ctl := 0, lg := 12, policy := 0, key := 1, batch := 4, tmo := 9, iter := 0, entry := 0, frame := 0, plid := 0, count := n, pendingArrive := [], unbinding := none }
  { mapped (placedWith opened 0 0 0) with rings := [(1, r)], eth := [(0, { ethReset with ena := true, modes := 1 })], clusters := [] }

/-- PlatformEvents: a packet of a mode that is not admitted, one of no ring, and one that is placed: that a packet verifies (R407) is the one thing that is left
open here. An ARRIVE after a time. -/
theorem wit_ethernet :
    (let p : EthPacket := { mode := .uud, ring := 1, src := 0, frameOk := true, payload := List.replicate 64 0 }
     let s := { ringed 0 with arg := { eth := some p } }
     (ethOf s 0).ena = true ∧ 64 ≤ (ethOf s 0).maxlen ∧ touchesBad (s.clusterOf 0).comErr 8 0 128 = false ∧ (keyEntry s 1).v = true ∧
       ((Tab.get? s.rings 1).map (fun r => (ingest s r 0 0 (List.replicate 64 0)).2)) = some true ∧
       after (exec .ethernetPacketReceive { s with rings := [] }) (fun u => u.dev.counters) = some [(0x0400, 1), (0x0408, 64)] ∧
       after (exec .ethernetPacketReceive { s with eth := [(0, { ethReset with ena := true })] }) (fun u => u.dev.counters) = some [(0x0410, 1)]) ∧
    (let s := { ringed 1 with arg := { r := 1 } }
     after (exec .arriveTimeout s) (fun u => (u.ctxOf 0 0).ms.map (·.tok.payload)) = some [1]) := by decide +kernel

/-- StepRunsTheDecodedInstruction, StepFiresOperatorsAndMakesEventsHappen, StepsKeepMemoriesCanonical: a step from canonical memories that answers a state. -/
theorem wit_memories : (mapped State.reset).memoriesWf := by
  have h : ∀ x, vget (Vector.replicate 4 ctxFree) x ctxFree = ctxFree := fun x => by
    match x with
    | 0 | 1 | 2 | 3 | _ + 4 => rfl
  refine ⟨rfl, rfl, rfl, rfl, fun _ => rfl, fun _ => rfl, fun e x => ?_⟩
  show memWf (vget (Vector.replicate 4 ctxFree) x ctxFree).pool = true
  rw [h]; rfl

theorem wit_steps :
    (let s := State.reset.withFetchWord 32 0x20010F00
     s.agenda = [.elem 0] ∧ (chooseSite (updateOrder { s with agenda := [] } 0) 0).isSome ∧ after (step s) (fun _ => true) = some true) ∧
    after (step { State.reset with agenda := [.event .powerSample { k := 5 }] }) (fun u => u.dev.pmw) = some 5 ∧
    (Instr.iadd 0 1 0 15 0 1).wf = true := by decide +kernel

/-! The clauses that wait, resume, end or drop: a state for each -/

/-- SystemGroupResults: a FENCE behind a store to HOST. SequencerEvents: CYCLE that reaches TCMP while the sequencer waits; a stop of a sequencer that runs, that
waits, and whose instruction waits. -/
theorem wit_waiting :
    (let s := { small with posted := [{ id := 0, owner := .seq 0, frame := none, waits := true, loc := .host 0, bytes := [1] }] }
     s.posted.any (fun w => w.owner == .seq s.cur) = true ∧ after (exec .fence s) (fun t => t.me.wait) = some (some .again)) ∧
    ([(RunState.waiting, none), (.halted, none), (.running, some .again)] : List (RunState × Option SeqWait)).all (fun p =>
      let s := withSeq (fun q => { q with run := p.1, wait := p.2, cycle := 6, tcmp := 7 })
      after (exec .timerCompare s) (fun t => (t.seqOf 0).cycle) == some 7) = true ∧
    ([(RunState.running, none), (.waiting, none), (.running, some .again)] : List (RunState × Option SeqWait)).all (fun p =>
      let s := withSeq (fun q => { q with run := p.1, wait := p.2 })
      after (exec .sequencerStop s) (fun t => ((t.seqOf 0).run, (t.seqOf 0).stopReq)) == some (if p.2.isSome then (.running, true) else (.halted, false))) = true := by
  decide +kernel

/-- EventAndTrapOperators: EVSET and EVWAIT at a context away from its event cluster, EVWAIT with CLR = 0 and with CLR = 1. -/
theorem wit_remote_events :
    ([(.evset 0 0 15 0 1, 0x1FF, 0), (.evwait 0 0 15 0 1, 0x0FF, 1), (.evwait 0 0 15 0 1, 0x1FF, 0)] : List (Instr × Word × Word)).all (fun p =>
      let s := (elemOn p.1 p.2.1 0 (dat 7) (dat 0) []).updCtx 0 0 (fun c => { c with evcl := 5 })
      sound s p.1 && after (exec p.1 s) (fun t => (vget (t.ctxOf 0 0).sw 0 0, (t.ctxOf 0 0).inflight.map (fun f => (match f.out with
        | .emit _ _ [.entry _] => true
        | _ => false)))) == some (p.2.2, [true])) = true := by decide +kernel

/-- PlacementInstructions: the first cycle of a GLOAD's wait in which nothing is FILLING. -/
theorem wit_filled :
    (let s := { placedWith opened 0 0 0 with agenda := [.seq 0] }
     let t := s.setMe { s.me with run := .running, wait := some (.filling 4 0 9) }
     t.cur = 0 ∧ t.agenda = [.seq t.cur] ∧ t.me.run = .running ∧ t.me.wait = some (.filling 4 0 9) ∧ beingFilled t 0 = false ∧
       after (step t) (fun u => (u.me.wait, u.reg 4)) = some (none, 9)) := by decide +kernel

/-- RecorderInstructions: the end of a STEP of which two firings were done. -/
theorem wit_stepped :
    (let s0 := rooted (logged 2 .running) 0 0 0 id
     let s := (s0.setMe { s0.me with wait := some (.fstep 4 0 0 true 0 3 5) }).updCtx 0 0 (fun c => { c with stepped := [(0, 8)], budget := [(0, 0)] })
     s.me.wait = some (.fstep 4 0 0 true 0 3 5) ∧ stepOver s 0 0 0 3 5 = true ∧ answer (.fstep 4 1 2) s = some 3) := by decide +kernel

/-- The same with the route leading from element 1 to itself. -/
def looped (t : Tok) (f : Frame) (full : Bool) : State :=
  let s := routed t f full
  { s.updCtx 1 0 (fun c => { c with routes := (s.ctxOf 0 0).routes, fifo := vset c.fifo 0 [t] }) with arg := { e := 1 } }

/-- A token of element 1's context that stands spilled. -/
def spilled (t : Tok) : Spilled := { plid := 0, vp := 0, el := 1, cl := 0, hbm := false, net := false, tok := t, chan := chanRoute 1 0 }

/-- TokenEvents: a token behind one that the context has spilled, and one for which there is no place; KILL, COMMIT and marker tokens, fresh, stale and stray. -/
theorem wit_token_clauses :
    (let s := { looped (tk .data 7) (runs 1) false with spills := [spilled (tk .data 9)] }
     tokenWaits s 1 0 0 = true ∧ hasSpill s (s.ctxOf 1 0) = true ∧
       after (exec .tokenAccept s) (fun t => ((t.ctxOf 1 0).ms.map (·.tok.payload), t.spills.length)) = some ([9, 7], 0)) ∧
    (let s := routed (tk .data 7) (runs 0) true
     spillPlace s 0 0 (tk .data 7) = none ∧ after (exec .tokenAccept s) (fun t => ((vget (t.ctxOf 0 0).fifo 0 []).length, t.spills.length)) = some (1, 0)) ∧
    ([(Kind.kill, Instr.killTokenAccept), (.commit, .commitTokenAccept)].all (fun p =>
      [(runs 0, 0, 0), ({ runs 0 with gen := 2 }, 1, 0), ({ runs 0 with st := .complete }, 0, 1)].all (fun q =>
        let s := routed (tk p.1 0x02) q.1 false
        controlWaits s 0 0 0 p.1 && after (exec p.2 s) (fun t => ((vget (t.ctxOf 0 0).fifo 0 []).length, (t.clusterOf 0).stalecnt.toNat, (t.clusterOf 0).straycnt.toNat)) ==
          some (0, q.2.1, q.2.2)))) = true ∧
    ([(1, 0), (2, 1)].all (fun p =>
      let z : Staging := { frame := 0, w := 2, done := false, marks := [], fwd := [], sw := [], accs := [], entries := [] }
      let f := { logged 1 .running with gen := BitVec.ofNat 2 p.1, log := { (logged 1 .running).log with cut := some 1, win := 2 } }
      let s := (routed (tk .mark 2) f false).updCtx 1 0 (fun c => { c with stagings := [z] })
      markTakes s 0 0 0 && after (exec .markTokenAccept s) (fun t => ((vget (t.ctxOf 0 0).fifo 0 []).length, (t.clusterOf 0).stalecnt.toNat)) == some (0, p.2))) = true := by decide +kernel

/-- TokenEvents: a KILL and a COMMIT that reach a memory-port entry and the spill area. -/
theorem wit_control_reach :
    ([(Kind.kill, Instr.killTokenAccept), (.commit, .commitTokenAccept)].all (fun p =>
      let s0 := { looped (tk p.1 0x02) (runs 1) false with spills := [spilled { tk .data 9 with spec := 2 }] }
      let s1 := s0.updCtx 1 0 (fun c => { c with words := vset c.words 0 ((encode (.lds 3 12 0 15 0 1)).getD vacant) })
      let s := s1.setElem 1 { s1.elemOf 1 with port := [{ entry 0x4501FF00#32 0xC00 8 .sent [] with tag := { tk .data 0 with spec := 2 } }] }
      controlWaits s 1 0 0 p.1 && (portOwner (s.ctxOf 1 0) false 3).any (fun w => reachesEntries (wOPC w)) && hasSpill s (s.ctxOf 1 0) &&
        after (exec p.2 s) (fun t => ((t.elemOf 1).port.map (fun m => (m.dead, m.tag.spec)), (t.ctxOf 1 0).spillKills.length)) == some ([if p.1 == .kill then (true, 2) else (false, 0)], 1) &&
        after (exec .spillAreaAnnihilate (s.updCtx 1 0 (fun c => { c with spillKills := [tk p.1 2] })))
          (fun t => t.spills.map (fun v => v.tok.spec)) == some (if p.1 == .kill then [] else [0]))) = true := by decide +kernel

/-- TokenEvents: the return of a stale spilled token, and of tokens that a restored context has still to take, fresh and stale; a sweep; firings that were annulled and
whose generation is past. -/
theorem wit_token_ends :
    ([(1, 1, 0), (2, 0, 1)].all (fun p =>
      let s := { routed (tk .data 7) { runs 1 with gen := BitVec.ofNat 2 p.1 } false with arg := { e := 1 } }
      let t := { s with spills := [spilled (tk .data 9)] }
      let w := s.updCtx 1 0 (fun c => { c with waitIn := [(false, tk .data 9)] })
      spillReturns t 1 0 && spillReturns w 1 0 &&
        [t, w].all (fun s => after (exec .spillReturn s) (fun u => ((u.ctxOf 1 0).ms.length, (u.clusterOf 0).stalecnt.toNat, u.spills.length + (u.ctxOf 1 0).waitIn.length)) ==
          some (p.2.1, p.2.2, 0)))) = true ∧
    (let s := (routed (tk .data 7) { runs 0 with gen := 2 } false).updCtx 1 0 (fun c => { c with ms := [{ tok := tk .data 0, slot := none, net := false, ord := 0, st := .idle }] })
     after (exec .staleSweep { s with arg := { e := 1 } }) (fun t => (t.ctxOf 1 0).ms.length) = some 0) ∧
    ([(true, runs 0), (false, { runs 0 with gen := 2 })].all (fun p =>
      let fl : Firing := { k := 0, opc := 0x20, ends := 5, opA := plainOperand 0, opB := plainOperand 0, used := [0], out := .fault 0x0B 6, tag := tk .data 0, cancel := p.1, win := 0, spare := [] }
      let s := (routed (tk .data 7) p.2 false).updCtx 0 0 (fun c => { c with inflight := [fl], ms := [{ tok := tk .data 0, slot := none, net := false, ord := 0, st := .firing 0 }] })
      (s.ctxOf 0 0).inflight.find? (fun f => f.k == s.arg.k) == some fl &&
        after (exec .firingCompletion s) (fun t => ((t.ctxOf 0 0).inflight.length, (t.ctxOf 0 0).ms.length, (t.clusterOf 0).recq.length)) == some (0, 0, 0))) = true := by decide +kernel

/-- FrameAndPlacementEvents: a round over two clusters, asked one after the other; a quiet counter at Q beside another; a GEN bump over two clusters. -/
theorem wit_two_clusters :
    (let s := rooted { runs 0 with home := 5, announced := true } 0 0 0 id
     roundClusters s 0 0 = [0, 5] ∧ after (exec .censusRoundStart s) (fun t => ((t.frameOf 0 0).asked, (t.frameOf 0 0).round.map List.length)) = some ([5], some 1) ∧
       after (exec .censusRoundStart { rooted { runs 0 with asked := [5, 7], round := some [] } 0 0 0 id with arg := { c := 5 } })
         (fun t => ((t.frameOf 0 0).asked, (t.frameOf 0 0).round.map List.length)) = some ([7], some 1)) ∧
    ([([], [5], 2), ([5, 0], [5], 1), ([0], [], 1)] : List (List Nat × List Nat × Nat)).all (fun p =>
      let s := rooted { runs 0 with st := .killing, home := 5, bump := some .kill, old := p.1 } 0 0 0 id
      custodyClusters s 0 == [0, 5] && mayBump s 0 0 && (waitingPackets s).isEmpty && after (exec .genBumpComplete s) (fun t =>
        ((t.frameOf 0 0).gen.toNat, (t.frameOf 0 0).old, (t.frameOf 0 0).st)) == some (p.2.2, p.2.1, if p.2.1 = [] then .opened else .killing)) = true := by decide +kernel

/-- An image like that one, whose first partition no element has room for. -/
def bigImage : List Byte := image.take 568 ++ leBytes 8 0xFFFFFFFF ++ image.drop 576

/-- A partition of more than 128 granules has no place. -/
theorem placeMap_none {s : State} {parts : List Word} {guest : List Nat} {oneDie : Bool} (h : 128 < pSum (parts.getD 0 0)) : placeMap s 1 parts guest oneDie = none := by
  have hf (pc : Nat × Nat) : fits s parts guest 0 pc = false := by
    have : freeGranules s (4 * pc.1) ≤ 128 := by simp only [freeGranules]; omega
    simp only [fits, List.range_succ, List.range_zero, List.nil_append, List.cons_append, List.all_cons, Nat.mul_zero, Nat.zero_add, Nat.add_zero]
    rw [show decide (pSum (parts.getD 0 0) ≤ freeGranules s (4 * pc.1)) = false by simp only [decide_eq_false_iff_not]; omega]
    simp
  have hn (ps : List Nat) (used : List Nat) : firstFit s parts guest 0 used ps = none := by simp [firstFit, hf]
  have hm (ps : List Nat) : mapAll s parts guest ps [0] [] = none := by rw [mapAll, hn]
  have h1 : List.range 1 = [0] := rfl
  simp only [placeMap, h1, hm, List.findSome?_eq_none_iff.mpr (fun _ _ => rfl), ite_self]

/-- Nor has that image. -/
theorem big_unplaced (s : State) (oneDie : Bool) : placeImage s bigImage oneDie = none := by
  rw [placeImage, show imN bigImage = 1 by decide +kernel]
  exact placeMap_none (by decide +kernel)

/-- FrameAndPlacementEvents: a GLOAD of it that a release has not helped. -/
theorem wit_retries : let s := { withSeq (fun q => { q with wait := some (.place 3 bigImage false true 1 0 0) }) with releases := 1 }
    s.pa.isNone ∧ s.me.stopReq = false ∧ s.me.wait = some (.place 3 bigImage false true 1 0 0) ∧ placeImage s bigImage false = none ∧ 0 ≠ s.releases :=
  ⟨by decide +kernel, by decide +kernel, by decide +kernel, big_unplaced _ _, by decide⟩

/-- FrameAndPlacementEvents: a GLOAD that is placed at its first attempt; a RESUME that lands; a plot that finds no lower place; a record whose fault has gone. -/
theorem wit_landings :
    (let s := withSeq (fun q => { q with wait := some (.place 3 image false true 0 0 0) })
     freePlid s = some 0 ∧ placeImage s image false = some [(0, 0)] ∧ after (exec .placementRetry s) (fun t => ((t.placeOf 0).isSome, t.me.wait)) = some (true, some (.filling 3 0 0))) ∧
    (let s := (rooted (runs 0) 0 0 0 id).updCtx 0 0 (fun c => { c with paused := [0], budget := [(0, 4)], pauseReq := [(0, false)] })
     after (exec .pauseLanding s) (fun t => ((t.ctxOf 0 0).paused, Tab.getD (t.ctxOf 0 0).budget 0 0)) = some ([], 0)) ∧
    (let s0 := withSeq id
     let s1 := (List.range 4).foldl (fun s e => s.setCtx e 0 { ctx0 e with st := .draining }) s0
     let s := { s1 with places := [(0, { place0 frameFree with moving := some 0 })] }
     plotDrained s (0, 0) = true ∧ takenPlot s 0 0 = none ∧ lowerFit s { place0 frameFree with moving := some 0 } 0 (0, 0) = none ∧
       after (exec .plotMove s) (fun t => ((t.placeOf 0).map (·.moving), (t.ctxOf 3 0).st)) = some (some none, .live)) ∧
    (let r : Record := { hdra := 0, hdrb := 0, paya := 0, payb := 0, fval := 0, elem := 0, cs := 0, opc := 0, code := 3, kind := 0, win := 0, frm := 0, aux := 0, fault := some 8 }
     let s := { withSeq id with clusters := [(0, { clusterReset with recq := [r] })] }
     nextRecord (s.clusterOf 0) (s.clusterOf 0).recq [] = some r ∧ after (exec .faultRecordWrite s) (fun t => (t.me.fqseq, (t.clusterOf 0).recq.length)) = some (0, 0)) := by decide +kernel

/-- MemoryPortEvents: a store that the host port has accepted; a walk of an entry that is annihilated, and of one whose generation is past; an MCST that is sent; and the
answers of an annihilated and of a stale entry. -/
theorem wit_port_clauses :
    (let w : Posted := { id := 0, owner := .entry 0 0, frame := none, waits := false, loc := .host 16, bytes := [1, 2] }
     let s := { State.reset with posted := [w], arg := { ok := true } }
     s.posted = [w] ∧ w.id = s.arg.k ∧ after (exec .homeAccessPerform s) (fun t => (memRead t.hostMem 16 2, t.posted.length)) = some ([1, 2], 0)) ∧
    ([(true, 1, 0), (false, 2, 1)].all (fun p =>
      let m := { entry 0x4601FF00#32 0xC00 120 .walking [] with dead := p.1, tag := { tk .data 0 with gen := BitVec.ofNat 2 p.2.1 } }
      let s := porting m
      mStale s 0 m == (p.2.1 == 2) && after (exec .tableWalkComplete s) (fun t => ((t.entry? 0 0).isNone, (t.clusterOf 0).stalecnt.toNat)) == some (true, p.2.2))) = true ∧
    ([(true, 1, 0), (false, 2, 1)].all (fun p =>
      let m := { entry 0x4601FF00#32 0xC00 120 .performed [line0] with dead := p.1, tag := { tk .data 0 with gen := BitVec.ofNat 2 p.2.1 } }
      let s := porting m
      answerable s 0 m && after (exec .memoryEntryAnswer s) (fun t => ((t.entry? 0 0).isNone, (t.clusterOf 0).stalecnt.toNat)) == some (true, p.2.2))) = true ∧
    (let m := entry 0x5201F000#32 0xC00 0 .translated [{ line0 with va := 0, n := 128, loc := .hbm 0 }]
     sendable (porting m) 0 m = true ∧ mOpc m = 0x52 ∧ ((porting m).frameOf 0 0).log.mode = 0 ∧
       after (exec .memoryEntrySend (porting m)) (fun u => (u.entry? 0 0).map (·.st)) = some (some .sent)) := by decide +kernel

/-- MemoryPortEvents: an entry of a graph with no root, which none of its streams has to walk for. -/
theorem wit_rootless :
    let m := entry 0x4601FF00#32 0xC00 120 .created []
    let s0 := porting m
    let s := { s0 with places := s0.places.map (fun p => (p.1, { p.2 with root := none })) }
    refillable s 0 m = true ∧ firstChecks s 0 m = none ∧ (rootOf s 0).isNone ∧ after (exec .streamRefill s) (fun u => (u.entry? 0 0).isNone) = some true := by decide +kernel

/-- CopyEngineEvents: a stale command at the head of a route and one that has not started; a piece with the places that it reads; the completion of one that has copied. -/
theorem wit_engine_clauses :
    (let t : Tok := { tk .tile 0 with tile := some (List.replicate 64 0) }
     let s := (rooted { runs 0 with gen := 2 } 0 0 0 id).updCtx 0 0 (fun c => { c with routes := vset c.routes 0 0xA000000000000000#64, fifo := vset c.fifo 0 [t] })
     ceHead s 0 0 0 = some t ∧ ceAccepts s 0 0 0 = true ∧ staleTok s 0 0 t = true ∧
       after (exec .ceCommandAccept s) (fun u => ((u.clusterOf 0).ce.length, (u.clusterOf 0).stalecnt)) = some (0, 1)) ∧
    (let y := { copying with sender := some (0, 0), tag := tk .data 0, spec := 2, spec0 := 2 }
     let s := { rooted { runs 0 with gen := 2 } 0 0 0 id with clusters := [(0, { clusterReset with ce := [y] })] }
     cyGoesOn s 0 y = true ∧ cyUnstarted s 0 y = true ∧ after (exec .ceCommandEnd s) (fun u => ((u.clusterOf 0).ce.length, (u.clusterOf 0).stalecnt)) = some (0, 1)) ∧
    (let s := walkMade (mapped { State.reset with clusters := [(0, { clusterReset with ce := [copying] })] }) (.ce 0 0) root1 0
     cyUnstarted s 0 copying = false ∧ (cyLines s 0 copying root1 [(0, 8)]).map (fun l => l.loc) = [.hbm 0] ∧
       (cyLines s 0 copying root1 [(0, 8)]).all (fun l => poolThere s l.loc) = true) ∧
    (let t : Tok := { tk .poison 0 with tile := none }
     let s := (rooted (runs 0) 0 0 0 id).updCtx 0 0 (fun c => { c with routes := vset c.routes 0 0xA000000000000000#64, fifo := vset c.fifo 0 [t] })
     ceHead s 0 0 0 = some t ∧ ceAccepts s 0 0 0 = true ∧ after (exec .ceCommandAccept s) (fun u => ((u.clusterOf 0).ce.length, (vget (u.ctxOf 0 0).fifo 0 []).length)) = some (0, 0)) ∧
    (let y := { copying with pos := 8, words := [0, 16, 7, 0, 0, 0, 0, 0], sender := some (0, 0), tag := tk .data 0 }
     let s := { rooted (runs 0) 0 0 0 id with clusters := [(0, { clusterReset with ce := [y] })] }
     cyCopied y = true ∧ cyGoesOn s 0 y = true ∧ cyReturns s 0 y = true ∧ holderOf s 0 0 0 = some (0, 0) ∧ staleTok s 0 0 y.tag = false ∧ cyRET y < 14 ∧
       after (exec .ceCommandEnd s) (fun u => ((vget (u.ctxOf 0 0).fifo 0 []) == [cyCompletion y], (u.clusterOf 0).ce.length)) = some (true, 0)) := by decide +kernel

/-- QueueEvents: a ring whose bytes the Reeve may not read. PacketsAtIssue: what a GLOAD's issue leaves. PacketsThatWait: a GLOAD whose contexts are FILLING, and one whose
contexts stand; a launch that gives up its compaction. -/
theorem wit_queue_clauses :
    (let s := queued (fun k => { k with st := .active, qbase := 0 })
     chooseQueue s = some (3, false) ∧ (match fetchPacket s (s.queueOf 3) with
       | .error _ => true
       | _ => false) = true ∧ after (exec .packetIssue s) (fun u => ((u.queueOf 3).st, (vget (u.queueOf 3).errec 0 0).toNat % 256, u.out)) = some (.error, 9, [.msix (s.queueOf 3).evec])) ∧
    (let s := walkMade (waitingPkt [5, 0, 0x40] (.op (.filling 0 0 7)) .active none none opened) (.queue 3 1) root1 0
     let t := s.updCtx 2 0 (fun c => { c with st := .filling })
     beingFilled s 0 = false ∧ beingFilled t 0 = true ∧ walkNeeded s (pktAccess 3 1 .write) none reeveCl root1 [(0x40, 8)] = none ∧ (match translateLine s (pktAccess 3 1 .write) none reeveCl root1 0x40 8 with
       | .ok (ln, _) => ln.loc == .hbm 0x40 && hbmOk s ln.key 0x40 8
       | _ => false) = true ∧ lostFor s (reeveAccess .write) reeveCl (.hbm 0x40) = false ∧
       after (exec .gloadPacket s) (fun u => ((u.queueOf 3).going.length, leNat (memRead u.hbm 0x40 8))) = some (0, 7) ∧
       after (exec .gloadPacket t) (fun u => (u.queueOf 3).going.length) = some 1) ∧
    queueAt .launchBudgetExpiry (waitingPkt [1] (.compact 3) .blocked none none opened) = some (.error, 0, 0) := by decide +kernel

/-- PacketsAtIssue: a GLOAD that is placed while nothing is FILLING, and a COPY for whose command there is room. -/
theorem wit_packets_room : freePlid gloading = some 0 ∧ gloading.pa.isNone ∧ ((gloading.clusterOf 575).ce.countP (fun y => !cyStaged gloading y)) < 256 := by decide +kernel

/-- KrydeoftEvents: the data of an entry's access, and a token, that bridge 0 between dies 0 and 1 loses. -/
theorem wit_bridge :
    (let m := entry 0x4501FF00#32 0xC00 8 .sent [{ line0 with loc := .commons 96 0 }]
     let s := { porting m with retries := [(0, .entry 0 0, 4)], arg := { beat := .packetLost } }
     beatWho s.arg = .entry 0 0 ∧ beatUnderWay s (.entry 0 0) 0 = true ∧ beatTries s (.entry 0 0) 0 = 4 ∧
       after (exec .bridgeBeatError s) (fun u => ((u.entry? 0 0).map (·.poison), Tab.keys u.dev.counters)) = some (some 1, [0x138])) ∧
    (let s := { (rooted (runs 0) 0 0 0 id).updCtx 0 0 (fun c => { c with routes := vset c.routes 0 0x8000180400000000#64, fifo := vset c.fifo 0 [tk .data 7] }) with
       arg := { beat := .streamLost } }
     let rt := vget (s.ctxOf 0 0).routes 0 0
     rtV rt = true ∧ rtTGT rt = 0 ∧ 0 ∈ packetBridges (dieOf 0) (dieOf (rtElem rt)) ∧
       after (exec .bridgeBeatError s) (fun u => ((vget (u.ctxOf 0 0).fifo 0 []).map (·.kind), Tab.keys u.dev.counters)) = some ([.poison], [0x138])) := by decide +kernel

/-- GuestEvents: a packet whose generation is past. -/
theorem wit_guest_stale :
    (let t : Tok := { tk .tile 0 with gen := 2, tile := some (leBytes 8 (2 ^ 48) ++ List.replicate 56 0) }
     let s := (guested .run).updCtx 0 0 (fun c => { c with routes := vset c.routes 0 0xA000000000100000#64, fifo := vset c.fifo 0 [t] })
     gqpHead s 0 0 0 = some t ∧ targetOpen s (s.ctxOf 0 0) 0 = true ∧ staleTok s 0 0 t = true ∧
       after (exec .gqpAccept s) (fun u => ((vget (u.ctxOf 0 0).fifo 0 []).length, u.guest.out.length)) = some (0, 0)) := by decide +kernel

/-! Translated accesses, control registers, poison, refusals: a state for each -/

/-- A Kernel sequencer with translation on: 0x4_0000 is byte 0x4_0000 of HBM, which holds 9; the leaf of that page stands in its entry, or no leaf of it anywhere. -/
def far (cached : Bool) : State :=
  let s0 := mapped small
  let s1 := { s0 with hbm := s0.hbm ++ [(0x40000, 9)], hbmKey := s0.hbmKey ++ [(2048, 1)] }
  let lf : Option Leaf := match walk s1 root1 0x40000 with
    | .ok l => if cached then some l else none
    | .error _ => none
  s1.setMe { s1.me with status := 0x101, ptbase := root1.1, asid := 1, tlb := lf }

/-- LocalLoadResults, LocalStoreResults, LocalAtomicResults: an access that reaches HBM. -/
theorem wit_far : let s := far true
    s.me.xe = true ∧ (s.reg 10).toNat = 0x40000 ∧ memWf s.hbm = true ∧ [AccKind.read, .write, .atomic].all (fun k =>
      walkNeeded (accessState s) (seqAccess s.me s.cur k) s.me.tlb s.cur (seqRoot s.me) [(0x40000, 8)] == none &&
        (match seqTranslate (accessState s) k 0x40000 8 with
          | .ok (ln, lf) => ln.loc == .hbm 0x40000 && hbmOk s ln.key 0x40000 8 && !lineHeld s ln.loc && !beatLost s (.seq s.cur) (homeDie s ln.loc) 0 && s.me.tlb == some lf
          | .error _ => false)) = true ∧ s.guest.copies = [] ∧
    after (exec (.ld 3 10 0) s) (fun t => t.reg 3) = some 9 ∧ after (exec (.sb 3 10 7) s) (fun t => memRead t.hbm 0x40000 8) = some [9, 0, 0, 0, 0, 0, 0, 0x11] ∧
    after (exec (.amoadd 3 10 5) s) (fun t => (t.reg 3, leNat (memRead t.hbm 0x40000 8))) = some (9, 0x1009) := by decide +kernel

/-- DataAccessTraps: the walk of an access ends in TRANSLATION; a walk that is still to be made; a line that a write of a frame holds. -/
theorem wit_far_traps :
    (let s0 := far false
     let s := { s0.setMe { s0.me with wait := some .again } with walks := [{ who := .seq 0, cl := 0, key := 1, asid := 1, va := 0x40000, top := 1, lvl := 0, tbl := 0, res := some (.fault cTRANSLATION) }] }
     walkNeeded (accessState s) (seqAccess s.me s.cur .read) s.me.tlb s.cur (seqRoot s.me) [(0x40000, 8)] = none ∧
       (seqTranslate (accessState s) .read 0x40000 8 matches .error 0x05) = true ∧ after (exec (.ld 3 10 0) s) (fun t => (t.me.pc, field t.me.tcause 0 8, t.me.tval)) = some (0x300, 0x05, 0x40000)) ∧
    after (exec (.ld 3 10 0) (far false)) (fun t => (t.me.wait, t.walks.length)) = some (some .again, 1) ∧
    (let f := { logged 1 .running with log := { (logged 1 .running).log with waiting := [{ kind := 0, loc := 0, num := 0, va := 0, line := some (homeLine (.hbm 0x40000)) }] } }
     let s := { far true with places := [(0, place0 f)] }
     lineHeld s (.hbm 0x40000) = true ∧ after (exec (.sd 3 10 0) s) (fun t => t.me.wait) = some (some .again)) := by decide +kernel

/-- ControlRegisterResults: FQBASE while the fault queue is empty and while it is not; CMNSCR moved down and up. -/
theorem wit_crScratchpad :
    after (exec (.crwr 4 0x102) small) (fun t => t.me.fqbase) = some 59 ∧ after (exec (.crwr 4 0x102) (small.setMe { small.me with fqtail := 1 })) (fun t => t.me.fqbase) = some small.me.fqbase ∧
    field small.me.fqbase 0 6 ≤ 59 ∧ ringScru small 0 ≤ 60 ∧ memWf (small.clusterOf 0).com = true ∧
    after (exec (.crwr 0 0x100) small) (fun t => t.me.cmnscr) = some (word (field small.me.fqbase 0 6 + 1)) ∧
    after (exec (.crwr 4 0x100) (small.setMe { small.me with cmnscr := 1 })) (fun t => t.me.cmnscr) = some 60 := by decide +kernel

/-- PoisonedFirings: the operators that a POISON operand, or none, meets. -/
theorem wit_sound : (soundOut (.iadd 0 1 0 15 0 1)).isSome ∧ (soundOut (.sink 0 1 0)).isSome := ⟨rfl, rfl⟩

/-- PlacementInstructions: a Kernel sequencer reads the first bytes of what stands at 0x1000. -/
theorem imagedWith_reads (bs : List Byte) (es : Tab Elem) (n : Nat) (hn : n ≤ bs.length) (h : n ≤ 0x3F000) : SeqReads { imagedWith bs with elems := es } 0x1000 n (bs.take n) { imagedWith bs with elems := es } := by
  generalize hs : ({ imagedWith bs with elems := es } : State) = s
  have hm : s.me.mem = memWrite [] 0x1000 bs := by rw [← hs]; rfl
  have he : s.me.memErr = [] := by rw [← hs]; rfl
  have hr := memRead_memWrite_part (m := []) rfl 0x1000 0 n bs (by omega)
  rw [Nat.add_zero, List.drop_zero] at hr
  have ha : accessState s = s := by rw [← hs]; rfl
  have hb : beatsPast (accessState s) (.seq s.cur) = s := by rw [← hs]; rfl
  refine ⟨by rw [ha, walkForSeq, if_pos (by simp [windowSize])], [], ?_, hb.symm⟩
  rw [ha]
  simp only [readForSeq]
  rw [if_pos (by simp [windowSize])]
  simp only [readLocal, he, hm, hr]
  rw [if_neg (by simp [windowSize]; omega), List.find?_eq_none.mpr (by simp)]

/-- PlacementInstructions: the refusals of GLOAD (an option bit, a header, an image, no place) and of GEVICT (an operand, a PLID, a placement that moves, one with a frame). -/
theorem wit_refusals :
    answer (.gload 4 1 1) imaged = some 0x0700000000000000#64 ∧ headerOk (List.replicate 64 0) = false ∧
    (let bad := image.take 2175 ++ [1]
     headerOk (bad.take 64) = true ∧ imSIZE (bad.take 64) = bad.length ∧ (imageFault bad).isSome) ∧
    answer (.gevict 4 1) (placedWith opened 0x4000 0 0) = some 0x0700000000000000#64 ∧ answer (.gevict 4 1) (placedWith opened 1 0 0) = some 0x0300000000000000#64 ∧
    (let s := { placedWith opened 0 0 0 with places := [(0, { place0 opened with moving := some 0 })] }
     after (exec (.gevict 4 1) s) (fun t => t.me.wait) = some (some .again)) ∧
    beingFilled (placedWith opened 0 0 0) 0 = false ∧ answer (.gevict 4 1) (placedWith opened 0 0 0) = some 0x0400000000000000#64 := by decide +kernel

/-- PlacementInstructions: every context slot of the machine is taken. -/
def taken : Tab Elem := (List.range 9216).map (fun e => (e, { elemReset with ctx := Vector.replicate 4 { ctxFree with st := .live } }))

theorem get_taken (l : List Nat) (v : Elem) (k : Nat) (h : k ∈ l) : Tab.get? (l.map (fun e => (e, v))) k = some v := by
  induction l with
  | nil => simp at h
  | cons a t ih =>
    simp only [List.map_cons, Tab.get?]
    split
    · rfl
    · exact ih ((List.mem_cons.mp h).resolve_left (fun e => ‹¬_› e.symm))

/-- No plot-context fits where every slot is taken. -/
theorem taken_fits {s : State} (h : s.elems = taken) (parts : List Word) (guest : List Nat) (v p x : Nat) (hp : p < 2304) (hx : x < 4) : fits s parts guest v (p, x) = false := by
  have he : s.elemOf (4 * p) = { elemReset with ctx := Vector.replicate 4 { ctxFree with st := .live } } := by
    simp only [State.elemOf, Tab.getD, h, taken]
    rw [get_taken _ _ _ (by simp; omega)]
    rfl
  have hc : (s.ctxOf (4 * p + 0) x).st = .live := by
    have hv (c : Ctx) : vget (Vector.replicate 4 c) x ctxFree = c := by
      match x, hx with
      | 0, _ | 1, _ | 2, _ | 3, _ => rfl
    rw [State.ctxOf, Nat.add_zero, he, hv]
  simp only [fits, List.range_succ, List.range_zero, List.nil_append, List.cons_append, List.all_cons, hc]
  simp

theorem taken_unplaced {s : State} (h : s.elems = taken) (oneDie : Bool) : placeImage s image oneDie = none := by
  have hn (parts : List Word) (guest : List Nat) (used ps : List Nat) (hp : ∀ p ∈ ps, p < 2304) : firstFit s parts guest 0 used ps = none := by
    simp only [firstFit, List.findSome?_eq_none_iff]
    intro p hm
    split
    · rfl
    · simp only [Option.map_eq_none_iff, List.find?_eq_none, List.mem_range]
      intro x hx
      simp [taken_fits h parts guest 0 p x (hp p hm) hx]
  have hd (d : Nat) (hd : d < 6) : ∀ p ∈ diePlots d, p < 2304 := by
    simp only [diePlots, List.mem_map, List.mem_range]
    rintro p ⟨i, hi, rfl⟩
    omega
  have hm (parts : List Word) (guest : List Nat) (ps : List Nat) (hp : ∀ p ∈ ps, p < 2304) : mapAll s parts guest ps [0] [] = none := by rw [mapAll, hn _ _ _ _ hp]
  rw [placeImage, show imN image = 1 by decide +kernel]
  simp only [placeMap, show List.range 1 = [0] from rfl]
  rw [List.findSome?_eq_none_iff.mpr (fun d h => hm _ _ _ (hd d (by simpa using h)))]
  simp only
  split
  · rfl
  · exact hm _ _ _ (fun p h => by simpa using h)

theorem taken_no_place {s : State} (h : s.elems = taken) (hp : s.places = []) (oneDie : Bool) (root : Option (Word × Nat)) (q : PaReq) :
    compactStep s image oneDie root false q = .none := by
  have hm : nextMove s = none := by simp [nextMove, residents, hp]
  simp only [compactStep, tryPlace, taken_unplaced h, hm]

/-- PlacementInstructions: there is neither a place for a sound image nor a move that could make one. -/
theorem wit_no_place (oneDie : Bool) : let s := { imagedWith image with elems := taken }
    s.pa.isNone ∧ compactStep s image oneDie (gloadRoot s.me) false (.seq 0) = .none :=
  ⟨rfl, taken_no_place (s := { imagedWith image with elems := taken }) (by simp only) (by simp only [imagedWith]; rfl) _ _ _⟩

/-- RecorderInstructions: RSTEP over one STORE entry, whose bytes it writes back. -/
theorem wit_rstep :
    (let l : LogEntry := { va := 0, loc := 0, win := 1, iter := 0, elem := 0, cs := 0, kind := lgSTORE, undone := false, spec := 0, flen := 1, data := [7] }
     let f := logged 2 .deadlocked
     let s0 := rooted { f with log := { f.log with tail := (entryBytes l).length } } 0 1 0 id
     let s := { s0 with hbm := (0, 9) :: memWrite [] 0x10000 (entryBytes l), hbmKey := [(0, 0), (512, 0)] }
     let r := stepEntries (s.frameOf 0 0).log (logEntries s (s.frameOf 0 0).log).reverse 1
     r = ([(0, l)], false) ∧ undoWaits s (s.frameOf 0 0).log r.1 = none ∧ frameStill s 0 0 = true ∧
       after (exec (.rstep 4 1 2) s) (fun t => (t.reg 4, memByte t.hbm 0, (logEntries t (t.frameOf 0 0).log).map (fun e => e.2.undone))) = some (1, 7, [true])) ∧
    (let s := rooted (logged 1 .opened) 0x5000000 0x20000 16 id
     copyAmong s (ringPieces { (s.frameOf 0 0).log with base := 0x20000, lg := 16 } 0 0) = none) := by decide +kernel

/-- InvalidationsAndSnapshots: a block that latches in a step. FrameAndPlacementEvents: no copy of the guest's stands in the way of a log's end. -/
theorem wit_latches :
    (let s := { small with agenda := [.latch 48], dev := { small.dev with latching := [2, 48], counters := [(0x1000, 3)] } }
     after (step s) (fun t => (t.dev.latching, t.dev.snap, Tab.get? t.dev.snapRegs 0x10040000)) = some ([2], [(0x1000, 3)], some small.me.status)) ∧
    (let s := rooted (logged 1 .rolling) 0 0 0 id
     copyAmong s (ringPieces (s.frameOf 0 0).log 0 32) = none ∧ undoWaits s (s.frameOf 0 0).log (entriesAbove s (s.frameOf 0 0).log 0) = none) := by decide +kernel

/-- MemoryPortEvents: a store that another accepted before it holds back; an entry that only such a store kept; a walk whose next table entry is invalid, names a table and is a leaf; an entry
that another walk keeps waiting and one that is translated; one that goes on where it had stopped; the packets of a multicast. -/
theorem wit_port_events :
    (let w (n : Nat) : Posted := { id := n, owner := .entry 0 0, frame := none, waits := true, loc := .host 16, bytes := [1, 2] }
     let m := entry 0x4601FF00#32 0xC00 120 .away [line0]
     let s := { porting m with posted := [w 0, w 1], arg := { ok := true, k := 1 } }
     after (exec .homeAccessPerform s) (fun t => t.posted.length) = some 2 ∧
       after (exec .homeAccessPerform { s with posted := [w 1] }) (fun t => (t.posted.length, (t.entry? 0 0).map (·.st))) = some (0, some .performed)) ∧
    ([(0, 0, none), (0x400000000003, 2, none), (0xF00085, 2, some ({ asid := 1, level := 2, vpage := 0, pte := 0xF00085#64 } : Leaf))] : List (Nat × Nat × Option Leaf)).all (fun p =>
      let w : Walk := { who := .entry 0 0, cl := 0, key := 1, asid := 1, va := 0, top := 1, lvl := if p.1 = 0x400000000003 then 3 else p.2.1, tbl := 2, res := none }
      let s := { mapped State.reset with hbm := memWrite [] 0x8000 (leBytes 8 p.1), walks := [w], arg := { ok := true } }
      after (exec .tableWalkComplete s) (fun t => (t.walks.map (fun w => (w.lvl, w.res)))) ==
        some [(p.2.1, if p.1 = 0 then some (.fault cTRANSLATION) else p.2.2.map WalkEnd.leaf)]) = true ∧
    (let m := entry 0x4601FF00#32 0xC00 120 .walking []
     let s := porting m
     let t := s.setElem 0 { s.elemOf 0 with streams := vset (s.elemOf 0).streams 0 (some { asid := 1, level := 0, vpage := 0, pte := 1 }) }
     mPast s 0 m = false ∧ allCached s 0 m (0, 1) = false ∧ after (exec .tableWalkComplete s) (fun u => ((u.entry? 0 0).map (·.st), u.walks.length)) = some (some .walking, 1) ∧
       allCached t 0 m (0, 1) = true ∧ after (exec .tableWalkComplete t) (fun u => (u.entry? 0 0).isSome) = some false) ∧
    (let m := { entry 0x4601FF00#32 0xC00 120 .translated [line0] with todo := [0] }
     sendable (porting m) 0 m = true ∧ after (exec .memoryEntrySend (porting m)) (fun u => (u.entry? 0 0).map (fun v => (v.st, v.todo))) = some (some (.sent, [0]))) ∧
    (let m := { entry 0x5201F000#32 0xC00 0 .sent [{ line0 with va := 0, n := 128, loc := .hbm 0 }] with todo := [0, 1] }
     performable (porting m) 0 m = true ∧ after (exec .homeAccessPerform (porting m)) (fun u => (u.entry? 0 0).map (·.todo)) = some (some [1])) := by decide +kernel

/-- KrydeoftEvents: an answer under another key's tag, a report of a link, a link that fails with a packet to send. PlatformEvents: BAR2, a request for MREG 2, a message of
another operation. -/
theorem wit_edges :
    (let m := entry 0x4501FF00#32 0xC00 8 .away []
     let s := { porting m with
       remotes := [{ rid := 5, owner := .entry 0 0, port := 0, peer := 1, off := 0, n := 8, mc := false, key := 0, addr := 0 }]
       arg := { k := 5, pkt := some { kpktZero with src := 1, rid := 5, tag := 1, data := [9] } } }
     after (exec .krydeoftRdata s) (fun u => (u.entry? 0 0).map (·.poison)) = some (some 1)) ∧
    (let l : Link := { a := 0, pa := 3, b := 7, pb := 0, up := true }
     let s := { State.reset with kports := [(3, { kportReset with st := .up })], arg := { link := some l } }
     after (exec .krydeoftLink s) (fun u => (u.links, field (domainOf u 7) 53 9, field (domainOf u 8) 61 1)) = some ([l], 0x103, 0)) ∧
    (let s := { State.reset with kports := [(3, { kportReset with st := .training, credits := Vector.replicate 4 8, held := [kpktZero] })], arg := { n := 3 } }
     after (exec .linkTrained s) (fun u => (u.out.length, (kportOf u 3).st)) = some (1, .fencing)) ∧
    (let s := { State.reset with arg := { hdm := some (.barWrite 2 8 [1, 2]) } }
     after (exec .registerWrite s) (fun u => memRead u.dev.bar2 8 2) = some [1, 2] ∧
       after (exec .registerWrite { State.reset with arg := { hdm := some (.barRead 2 8 2) } }) (fun u => u.out) = some [.bar (some 0)]) ∧
    (let b := List.replicate 32 (0 : Byte)
     b.length = 32 ∧ after (exec .attestationRequest { State.reset with arg := { k := 2, bytes := b } }) (fun u => u.dev.sessions.length) = some State.reset.dev.sessions.length) ∧
    pmOP (leBytes 2 0 ++ [2] ++ List.replicate 125 0) = 2 := by decide +kernel

end Sys2Proof.Tests
end

/-! The sequencer's register instructions, branches, jumps and trapping instructions (R34 to R51): what each integer operation computes, in the words of
the spec's tables, and how an instruction of each form ends. -/

namespace Sys2Proof.Machine

/-! Shifts and rotates (R36) -/

theorem shiftLeft_eq_ofNat (a : Word) (n : Nat) : a <<< n = BitVec.ofNat 64 (a.toNat * 2 ^ n) := by
  apply BitVec.eq_of_toNat_eq
  rw [BitVec.toNat_shiftLeft, Nat.shiftLeft_eq, BitVec.toNat_ofNat]

theorem ushiftRight_eq_ofNat (a : Word) (n : Nat) : a >>> n = BitVec.ofNat 64 (a.toNat / 2 ^ n) := by
  rw [← Nat.shiftRight_eq_div_pow, ← BitVec.toNat_ushiftRight, BitVec.ofNat_toNat, BitVec.setWidth_eq]

theorem aluShl_eq (a b : Word) : aluShl a b = BitVec.ofNat 64 (a.toNat * 2 ^ (b.toNat % 64)) := shiftLeft_eq_ofNat a _

theorem aluShr_eq (a b : Word) : aluShr a b = BitVec.ofNat 64 (a.toNat / 2 ^ (b.toNat % 64)) := ushiftRight_eq_ofNat a _

theorem aluSar_eq (a b : Word) : aluSar a b = BitVec.ofInt 64 (a.toInt / 2 ^ (b.toNat % 64)) := by
  have hpow : ((2 ^ (b.toNat % 64) : Nat) : Int) = 2 ^ (b.toNat % 64) := Int.natCast_pow 2 _
  rw [aluSar, amount, BitVec.sshiftRight_eq, Int.shiftRight_eq_div_pow, hpow]

theorem aluRot_eq (a b : Word) :
    aluRot a b = BitVec.ofNat 64 (a.toNat * 2 ^ (b.toNat % 64)) ||| BitVec.ofNat 64 (a.toNat / 2 ^ (64 - b.toNat % 64)) := by
  rw [aluRot, amount, BitVec.rotateLeft_def, Nat.mod_mod, shiftLeft_eq_ofNat, ushiftRight_eq_ofNat]

/-! Products, quotients and remainders (R37) -/

theorem aluMul_eq (a b : Word) : aluMul a b = BitVec.ofInt 64 (a.toInt * b.toInt) := by
  rw [BitVec.ofInt_mul, BitVec.ofInt_toInt, BitVec.ofInt_toInt, aluMul]

/-- R37: the dividend and the divisor whose quotient, 2^63, is no 64-bit signed value. -/
abbrev QuotientOverflows (a b : Word) : Prop := a = 0x8000000000000000#64 ∧ b = BitVec.allOnes 64

/-- The overflow needs no case of its own in the model: 2^63 wraps to -2^63. -/
theorem ofInt_tdiv_of_overflows {a b : Word} (h : QuotientOverflows a b) : BitVec.ofInt 64 (a.toInt.tdiv b.toInt) = 0x8000000000000000#64 := by
  obtain ⟨rfl, rfl⟩ := h; decide

theorem ofInt_tmod_of_overflows {a b : Word} (h : QuotientOverflows a b) : BitVec.ofInt 64 (a.toInt.tmod b.toInt) = 0 := by
  obtain ⟨rfl, rfl⟩ := h; decide

theorem aluDiv_eq (a b : Word) :
    aluDiv a b = if b = 0 then 0xFFFFFFFFFFFFFFFF#64 else if QuotientOverflows a b then 0x8000000000000000#64
      else BitVec.ofInt 64 (a.toInt.tdiv b.toInt) := by
  rw [aluDiv]
  split
  · rfl
  · split
    · exact ofInt_tdiv_of_overflows ‹_›
    · rfl

theorem aluDivu_eq (a b : Word) : aluDivu a b = if b = 0 then 0xFFFFFFFFFFFFFFFF#64 else BitVec.ofNat 64 (a.toNat / b.toNat) := rfl

theorem aluRem_eq (a b : Word) :
    aluRem a b = if b = 0 then a else if QuotientOverflows a b then 0 else BitVec.ofInt 64 (a.toInt - b.toInt * a.toInt.tdiv b.toInt) := by
  rw [aluRem]
  split
  · rfl
  · split
    · exact ofInt_tmod_of_overflows ‹_›
    · rw [Int.tmod_def]

theorem aluRemu_eq (a b : Word) : aluRemu a b = if b = 0 then a else BitVec.ofNat 64 (a.toNat - b.toNat * (a.toNat / b.toNat)) := by
  rw [aluRemu, Nat.mod_eq_sub]

/-! Comparisons, minima and maxima (R38) -/

theorem aluSlt_eq (a b : Word) : aluSlt a b = if a.toInt < b.toInt then 1 else 0 := by
  simp [aluSlt, flag, BitVec.slt_eq_decide]

theorem aluSltu_eq (a b : Word) : aluSltu a b = if a.toNat < b.toNat then 1 else 0 := by
  simp [aluSltu, flag, BitVec.ult_eq_decide]

theorem aluSeq_eq (a b : Word) : aluSeq a b = if a = b then 1 else 0 := by
  simp [aluSeq, flag]

theorem aluMin_eq (a b : Word) : aluMin a b = BitVec.ofInt 64 (min a.toInt b.toInt) := by
  have hmin : min a.toInt b.toInt = if b.toInt < a.toInt then b.toInt else a.toInt := by omega
  simp only [aluMin, BitVec.slt_eq_decide, decide_eq_true_eq, hmin, apply_ite (BitVec.ofInt 64), BitVec.ofInt_toInt]

theorem aluMax_eq (a b : Word) : aluMax a b = BitVec.ofInt 64 (max a.toInt b.toInt) := by
  have hmax : max a.toInt b.toInt = if a.toInt < b.toInt then b.toInt else a.toInt := by omega
  simp only [aluMax, BitVec.slt_eq_decide, decide_eq_true_eq, hmax, apply_ite (BitVec.ofInt 64), BitVec.ofInt_toInt]

theorem aluMinu_eq (a b : Word) : aluMinu a b = BitVec.ofNat 64 (min a.toNat b.toNat) := by
  have hmin : min a.toNat b.toNat = if b.toNat < a.toNat then b.toNat else a.toNat := by split <;> omega
  simp only [aluMinu, BitVec.ult_eq_decide, decide_eq_true_eq, hmin, apply_ite (BitVec.ofNat 64), BitVec.ofNat_toNat, BitVec.setWidth_eq]

theorem aluMaxu_eq (a b : Word) : aluMaxu a b = BitVec.ofNat 64 (max a.toNat b.toNat) := by
  have hmax : max a.toNat b.toNat = if a.toNat < b.toNat then b.toNat else a.toNat := by split <;> omega
  simp only [aluMaxu, BitVec.ult_eq_decide, decide_eq_true_eq, hmax, apply_ite (BitVec.ofNat 64), BitVec.ofNat_toNat, BitVec.setWidth_eq]

/-! Counts (R39) -/

theorem bit_eq_getLsbD (a : Word) (k : Nat) : bit a k = a.getLsbD k := by
  rw [bit, BitVec.getLsbD, Nat.testBit_eq_decide_div_mod_eq, Bool.beq_eq_decide_eq]

theorem aluClz_spec (a : Word) :
    ∃ n, aluClz a = BitVec.ofNat 64 n ∧ n ≤ 64 ∧ a.toNat < 2 ^ (64 - n) ∧ (n < 64 → 2 ^ (63 - n) ≤ a.toNat) := by
  by_cases h : a = 0
  · exact ⟨64, by rw [aluClz, if_pos h]; rfl, Nat.le_refl 64, by simp [h], by omega⟩
  · have h0 : a.toNat ≠ 0 := fun h' => h (BitVec.eq_of_toNat_eq h')
    have hlog : a.toNat.log2 < 64 := (Nat.log2_lt h0).mpr a.isLt
    refine ⟨63 - a.toNat.log2, by rw [aluClz, if_neg h], by omega, ?_, fun _ => ?_⟩
    · rw [show 64 - (63 - a.toNat.log2) = a.toNat.log2 + 1 by omega]; exact Nat.lt_log2_self
    · rw [show 63 - (63 - a.toNat.log2) = a.toNat.log2 by omega]; exact Nat.log2_self_le h0

/-- A number whose bits below `n` are all 0 is a multiple of 2^n. -/
theorem toNat_mod_two_pow_eq_zero {a : Word} {n : Nat} (h : ∀ k, k < n → a.getLsbD k = false) : a.toNat % 2 ^ n = 0 := by
  apply Nat.eq_of_testBit_eq
  intro k
  rw [Nat.testBit_mod_two_pow, Nat.zero_testBit, Bool.and_eq_false_imp, decide_eq_true_eq]
  exact h k

theorem aluCtz_spec (a : Word) :
    ∃ n, aluCtz a = BitVec.ofNat 64 n ∧ n ≤ 64 ∧ a.toNat % 2 ^ n = 0 ∧ (n < 64 → a.getLsbD n = true) := by
  refine ⟨(lowestBit a).getD 64, rfl, ?_⟩
  cases h : lowestBit a with
  | none =>
    have hz : ∀ k, k < 64 → a.getLsbD k = false := by
      simpa [lowestBit, List.find?_range_eq_none, bit_eq_getLsbD] using h
    exact ⟨Nat.le_refl 64, toNat_mod_two_pow_eq_zero hz, fun h => absurd h (Nat.lt_irrefl 64)⟩
  | some n =>
    obtain ⟨hn, hlt, hz⟩ : a.getLsbD n = true ∧ n < 64 ∧ ∀ k, k < n → a.getLsbD k = false := by
      simpa [lowestBit, List.find?_range_eq_some, bit_eq_getLsbD] using h
    exact ⟨Nat.le_of_lt hlt, toNat_mod_two_pow_eq_zero hz, fun _ => hn⟩

theorem countP_eq_sum_toNat {α : Type} (p : α → Bool) (l : List α) : l.countP p = (l.map (fun k => (p k).toNat)).sum := by
  induction l with
  | nil => rfl
  | cons k l ih => rw [List.countP_cons, List.map_cons, List.sum_cons, ih, Nat.add_comm]; cases p k <;> rfl

theorem aluPopc_eq (a : Word) : aluPopc a = BitVec.ofNat 64 ((List.range 64).map (fun k => (a.getLsbD k).toNat)).sum := by
  simp only [aluPopc, countP_eq_sum_toNat, bit_eq_getLsbD]

/-! Bit fields (R41) -/

/-- R41: bit `i` of the field of width `w` from bit `o` of a word; positions above bit 63 read as zero. -/
def fieldBit (a : Word) (o w i : Nat) : Bool := decide (i < w ∧ o + i ≤ 63) && a.getLsbD (o + i)

/-- A word has no bit above bit 63, so the field's bits are those of the shifted number. -/
theorem testBit_field (a : Word) (o w i : Nat) : (a.toNat / 2 ^ o % 2 ^ w).testBit i = fieldBit a o w i := by
  rw [Nat.testBit_mod_two_pow, Nat.testBit_div_two_pow, Nat.add_comm i o, fieldBit]
  change (_ && a.getLsbD (o + i)) = _
  by_cases h : o + i ≤ 63
  · simp [h]
  · simp [BitVec.getLsbD_of_ge a (o + i) (by omega)]

theorem getLsbD_bitExtract (a : Word) (o w : Nat) {i : Nat} (hi : i < 64) : (bitExtract a o w).getLsbD i = fieldBit a o w i := by
  rw [bitExtract, BitVec.getLsbD_ofNat, testBit_field, decide_eq_true hi, Bool.true_and]

/-- `signed` reads the low bits of a number as two's complement. -/
theorem signed_eq_toInt {n : Nat} (hn : 0 < n) (v : Nat) : signed n v = (BitVec.ofNat n v).toInt := by
  obtain ⟨m, rfl⟩ : ∃ m, n = m + 1 := ⟨n - 1, by omega⟩
  rw [signed, BitVec.toInt_eq_toNat_cond, BitVec.toNat_ofNat, Nat.add_sub_cancel, Nat.pow_succ]
  simp only [Nat.mul_comm (2 ^ m) 2, Nat.mul_lt_mul_left (show 0 < 2 by omega)]

/-- The sign extension of a field repeats bit w - 1 of it. -/
theorem getLsbD_bitExtractSigned (a : Word) (o w : Nat) {i : Nat} (hi : i < 64) :
    (bitExtractSigned a o w).getLsbD i =
      if w = 0 then false else if w ≤ i then decide (w ≤ 64) && fieldBit a o w (w - 1) else fieldBit a o w i := by
  have hbit : ∀ k, k < w → (BitVec.ofNat w (a.toNat / 2 ^ o)).getLsbD k = fieldBit a o w k := fun k hk => by
    rw [← testBit_field, Nat.testBit_mod_two_pow, BitVec.getLsbD_ofNat]
  rw [bitExtractSigned]
  by_cases h0 : w = 0
  · simp [h0]
  · rw [if_neg h0, if_neg h0]
    by_cases h64 : w ≤ 64
    · rw [if_pos h64, signed_eq_toInt (by omega), ← BitVec.signExtend, BitVec.getLsbD_signExtend, BitVec.msb_eq_getLsbD_last,
        hbit (w - 1) (by omega), decide_eq_true hi, decide_eq_true h64, Bool.true_and, Bool.true_and]
      by_cases hiw : i < w
      · rw [if_pos hiw, if_neg (by omega), hbit i hiw]
      · rw [if_neg hiw, if_pos (by omega)]
    · rw [if_neg h64, if_neg (by omega), getLsbD_bitExtract a o w hi]

/-- The bits of a word whose field of `n` bits at bit `lo` is replaced. -/
theorem getLsbD_setField (d : Word) (lo n v : Nat) {i : Nat} (hi : i < 64) :
    (setField d lo n v).getLsbD i = if lo ≤ i ∧ i < lo + n then v.testBit (i - lo) else d.getLsbD i := by
  have hlow : d.toNat % 2 ^ lo < 2 ^ lo := Nat.mod_lt _ (Nat.two_pow_pos lo)
  have hmid : d.toNat % 2 ^ lo + v % 2 ^ n * 2 ^ lo < 2 ^ (lo + n) := by
    have := Nat.mod_lt v (Nat.two_pow_pos n)
    have := Nat.mul_le_mul_right (2 ^ lo) (show v % 2 ^ n + 1 ≤ 2 ^ n from this)
    rw [Nat.pow_add, Nat.mul_comm (2 ^ lo)]; rw [Nat.add_mul] at this; omega
  rw [setField, BitVec.getLsbD_ofNat, decide_eq_true hi, Bool.true_and, Nat.add_comm (_ + _), Nat.mul_comm _ (2 ^ (lo + n)),
    Nat.testBit_two_pow_mul_add _ hmid, Nat.add_comm (_ % _), Nat.mul_comm _ (2 ^ lo), Nat.testBit_two_pow_mul_add _ hlow,
    Nat.testBit_div_two_pow, Nat.testBit_mod_two_pow, Nat.testBit_mod_two_pow]
  by_cases hl : i < lo
  · rw [if_pos (by omega), if_pos hl, if_neg (by omega), decide_eq_true hl, Bool.true_and]; rfl
  · by_cases hn : i < lo + n
    · rw [if_pos hn, if_neg hl, if_pos (by omega), decide_eq_true (by omega), Bool.true_and]
    · rw [if_neg hn, if_neg (by omega), Nat.sub_add_cancel (by omega)]; rfl

theorem getLsbD_bitInsert (d a : Word) (o w : Nat) {i : Nat} (hi : i < 64) :
    (bitInsert d a o w).getLsbD i = if o ≤ i ∧ i < o + w then a.getLsbD (i - o) else d.getLsbD i := by
  rw [bitInsert]
  split
  · rw [if_neg (by omega)]
  · rw [getLsbD_setField d _ _ _ hi]
    have hw : i < o + min w (64 - o) ↔ i < o + w := by omega
    simp only [hw]; rfl

/-! Branch conditions and targets (R44, R45) -/

/-- R29: an offset counts words, so that the target is 4 times the offset away. -/
theorem wordOffset_eq {n : Nat} (o : BitVec n) : wordOffset o = BitVec.ofInt 64 (4 * o.toInt) := by
  rw [wordOffset, BitVec.signExtend, BitVec.ofInt_mul, BitVec.shiftLeft_eq_mul_twoPow, BitVec.mul_comm]; rfl

theorem bne_eq_decide (a b : Word) : (a != b) = decide (a ≠ b) := by
  rw [bne, Bool.beq_eq_decide_eq, decide_not]

theorem not_slt_eq_decide (a b : Word) : (!a.slt b) = decide (b.toInt ≤ a.toInt) := by
  rw [← BitVec.sle_eq_not_slt, BitVec.sle_eq_decide]

theorem not_ult_eq_decide (a b : Word) : (!a.ult b) = decide (b.toNat ≤ a.toNat) := by
  rw [← BitVec.ule_eq_not_ult, BitVec.ule_eq_decide]

/-! How an instruction of each form ends (R35, R28) -/

/-- An instruction whose meaning is a result writes it and goes on to the next word. -/
theorem wrote_of_exec_result {s : State} {i : Instr} {d : BitVec 5} {v w : Word} {cost : Nat} (h : s.me.stopReq = false)
    (hexec : exec i s = .next (s.result d w cost)) (hv : w = v) :
    ∃ t, exec i s = .next t ∧ Wrote s t d v (s.me.pc + 4) cost :=
  ⟨_, hexec, hv ▸ wrote_result s d w cost h⟩

/-- An instruction whose meaning is a branch goes to its target in 2 cycles where it is taken, else to the next word in 1. -/
theorem wentOn_of_exec_branch {s : State} {i : Instr} {o : BitVec 16} {c taken : Bool} (h : s.me.stopReq = false)
    (hexec : exec i s = .next (branch c o s)) (hc : c = taken) :
    ∃ t, exec i s = .next t ∧
      (if taken then WentOn s t (s.me.pc + BitVec.ofInt 64 (4 * o.toInt)) 2 else WentOn s t (s.me.pc + 4) 1) := by
  subst hc
  refine ⟨_, hexec, ?_⟩
  cases c with
  | true => simpa [branch, wordOffset_eq] using wentOn_finish s (s.me.pc + wordOffset o) 2 h
  | false => exact wentOn_advance s 1 h

theorem exec_jalr_aligned {s : State} (d : BitVec 5) {a : BitVec 5} {imm : BitVec 16} (h : (s.ea a imm).toNat % 4 = 0) :
    exec (.jalr d a imm) s = .next (s.setMe ((s.me.setReg d (s.me.pc + 4)).finish (s.ea a imm) 2)) :=
  congrArg Host.Outcome.next (if_neg (fun hne => hne h))

theorem exec_jalr_misaligned {s : State} (d : BitVec 5) {a : BitVec 5} {imm : BitVec 16} (h : (s.ea a imm).toNat % 4 ≠ 0) :
    exec (.jalr d a imm) s = .next (s.trap cALIGNMENT 0 (s.ea a imm)) :=
  congrArg Host.Outcome.next (if_pos h)

/-! The obligations of the register groups, branches, jumps and the two trapping instructions -/

/-- Settles O7: each member of R36 ends with a result, whose value is the operation's. -/
theorem integerGroupResults : Obligations.IntegerGroupResults := by
  intro s d a b h
  exact ⟨wrote_of_exec_result h rfl rfl, wrote_of_exec_result h rfl rfl, wrote_of_exec_result h rfl rfl, wrote_of_exec_result h rfl rfl,
    wrote_of_exec_result h rfl rfl, wrote_of_exec_result h rfl rfl, wrote_of_exec_result h rfl (aluShl_eq _ _),
    wrote_of_exec_result h rfl (aluShr_eq _ _), wrote_of_exec_result h rfl (aluSar_eq _ _), wrote_of_exec_result h rfl (aluRot_eq _ _)⟩

/-- Settles O8: each member of R37 ends with a result; a divisor of 0 and the one overflow are cases of the value. -/
theorem multiplyDivideResults : Obligations.MultiplyDivideResults := by
  intro s d a b h
  exact ⟨wrote_of_exec_result h rfl (aluMul_eq _ _), wrote_of_exec_result h rfl rfl, wrote_of_exec_result h rfl rfl,
    wrote_of_exec_result h rfl (aluDiv_eq _ _), wrote_of_exec_result h rfl (aluDivu_eq _ _), wrote_of_exec_result h rfl (aluRem_eq _ _),
    wrote_of_exec_result h rfl (aluRemu_eq _ _)⟩

/-- Settles O9: each member of R38 and R39 ends with a result; the counts are what their specifications determine. -/
theorem compareAndCountResults : Obligations.CompareAndCountResults := by
  intro s d a b h
  refine ⟨wrote_of_exec_result h rfl (aluSlt_eq _ _), wrote_of_exec_result h rfl (aluSltu_eq _ _), wrote_of_exec_result h rfl (aluSeq_eq _ _),
    wrote_of_exec_result h rfl (aluMin_eq _ _), wrote_of_exec_result h rfl (aluMax_eq _ _), wrote_of_exec_result h rfl (aluMinu_eq _ _),
    wrote_of_exec_result h rfl (aluMaxu_eq _ _), ?clz, ?ctz, wrote_of_exec_result h rfl (aluPopc_eq _)⟩
  case clz =>
    obtain ⟨n, hn, hspec⟩ := aluClz_spec (s.reg a)
    obtain ⟨t, ht, hw⟩ := wrote_of_exec_result (i := .clz d a) h rfl hn
    exact ⟨t, n, ht, hw, hspec⟩
  case ctz =>
    obtain ⟨n, hn, hspec⟩ := aluCtz_spec (s.reg a)
    obtain ⟨t, ht, hw⟩ := wrote_of_exec_result (i := .ctz d a) h rfl hn
    exact ⟨t, n, ht, hw, hspec⟩

/-- Settles O11: each member of R41 ends with a result, described by its bits. -/
theorem bitFieldResults : Obligations.BitFieldResults := by
  intro s d a o w h
  refine ⟨?bfx, ?bfxs, ?bfi⟩
  case bfx =>
    obtain ⟨t, ht, hw⟩ := wrote_of_exec_result (i := .bfx d a o w) h rfl rfl
    exact ⟨t, _, ht, hw, fun i hi => getLsbD_bitExtract (s.reg a) _ _ hi⟩
  case bfxs =>
    obtain ⟨t, ht, hw⟩ := wrote_of_exec_result (i := .bfxs d a o w) h rfl rfl
    exact ⟨t, _, ht, hw, fun i hi => getLsbD_bitExtractSigned (s.reg a) _ _ hi⟩
  case bfi =>
    obtain ⟨t, ht, hw⟩ := wrote_of_exec_result (i := .bfi d a o w) h rfl rfl
    exact ⟨t, _, ht, hw, fun i hi => getLsbD_bitInsert (s.reg d) (s.reg a) _ _ hi⟩

/-- Settles O16: each member of R44 is a branch on its own condition. -/
theorem branchResults : Obligations.BranchResults := by
  intro s a b o i taken h A B hi
  simp only [List.mem_cons, Prod.mk.injEq, List.not_mem_nil, or_false] at hi
  obtain ⟨rfl, rfl⟩ | ⟨rfl, rfl⟩ | ⟨rfl, rfl⟩ | ⟨rfl, rfl⟩ | ⟨rfl, rfl⟩ | ⟨rfl, rfl⟩ := hi
  · exact wentOn_of_exec_branch h rfl (Bool.beq_eq_decide_eq _ _)
  · exact wentOn_of_exec_branch h rfl (bne_eq_decide _ _)
  · exact wentOn_of_exec_branch h rfl BitVec.slt_eq_decide
  · exact wentOn_of_exec_branch h rfl (not_slt_eq_decide _ _)
  · exact wentOn_of_exec_branch h rfl BitVec.ult_eq_decide
  · exact wentOn_of_exec_branch h rfl (not_ult_eq_decide _ _)

/-- Settles O17: J and JAL always go to their target; JALR does where it is aligned, and else traps. -/
theorem jumpResults : Obligations.JumpResults := by
  intro s d a o imm h target x
  have htarget : s.me.pc + wordOffset o = target := by rw [wordOffset_eq]
  refine ⟨⟨_, rfl, ?j⟩, ⟨_, rfl, ?jal⟩, fun hx => ?jalr, fun hx => ?misaligned⟩
  case j => exact htarget ▸ wentOn_finish s _ 2 h
  case jal => exact htarget ▸ wrote_setReg s 31 _ _ 2 h
  case jalr => exact ⟨_, exec_jalr_aligned d hx, wrote_setReg s d _ x 2 h⟩
  case misaligned => exact ⟨_, exec_jalr_misaligned d hx, trapped_trap s _ _ x⟩

/-- Settles O22: both instructions are a trap, whatever the level. -/
theorem syscallAndBreakTrap : Obligations.SyscallAndBreakTrap := by
  intro s imm
  exact ⟨⟨_, rfl, trapped_trap s cTRAPOP 0 _⟩, ⟨_, rfl, trapped_trap s cTRAPOP 1 _⟩⟩

end Sys2Proof.Machine
